-- ==== Sys2Proof/Word.lean ====
section
/-! DEFINITION. The numbers of the KS580 (spec/00_scope.md, Conventions) and fixed-size tables of records. -/

namespace Sys2Proof

/-- One byte of a frame (R192). -/
abbrev Byte := BitVec 8

/-- A slot, 0 to 95 (R1). -/
abbrev SlotId := Fin 96
/-- A cell of the sector, 0 to 2,047 (R24). -/
abbrev CellId := Fin 2048
/-- A record of the segment pool, 0 to 1,023 (R44). -/
abbrev SegId := Fin 1024
/-- A branch, 0 to 3 (R1). -/
abbrev BranchId := Fin 4
/-- A drop of a branch, 0 to 23 (R1). -/
abbrev DropId := Fin 24
/-- A border link, 0 to 3 (R116). -/
abbrev LinkId := Fin 4
/-- A request port, 0 to 2 (R168). -/
abbrev PortId := Fin 3
/-- A sector id, 0 to 63 (R182). -/
abbrev SectorId := Fin 64
/-- A theta position, 0 to 24,000 steps (R2). -/
abbrev Theta := Fin 24001
/-- A phi position, 0 to 12,000 steps (R2). -/
abbrev Phi := Fin 12001

/-- A table of `n` records, held as a list of that length. -/
structure Table (n : Nat) (α : Type) where
  items : List α
  size : items.length = n
deriving DecidableEq, Repr

namespace Table
variable {n : Nat} {α β : Type}

/-- Every record is `a`. -/
def fill (n : Nat) (a : α) : Table n α := ⟨List.replicate n a, List.length_replicate⟩

/-- Record `i`. -/
def get (t : Table n α) (i : Fin n) : α := t.items[i.val]'(by rw [t.size]; exact i.isLt)

/-- Record `i` replaced. -/
def set (t : Table n α) (i : Fin n) (a : α) : Table n α :=
  ⟨t.items.set i.val a, by rw [List.length_set, t.size]⟩

/-- Record `i` changed by `f`. -/
def upd (t : Table n α) (i : Fin n) (f : α → α) : Table n α := t.set i (f (t.get i))

/-- `f` at each place of a list, the places counted from `k`. -/
def mapFrom (f : Nat → α → β) : Nat → List α → List β
  | _, [] => []
  | k, a :: l => f k a :: mapFrom f (k + 1) l

theorem length_mapFrom (f : Nat → α → β) (k : Nat) (l : List α) :
    (mapFrom f k l).length = l.length := by
  induction l generalizing k with
  | nil => rfl
  | cons a l ih => simp [mapFrom, ih]

/-- Every record changed by `f` of its number and itself. -/
def mapIdx (f : Nat → α → β) (t : Table n α) : Table n β :=
  ⟨mapFrom f 0 t.items, by rw [length_mapFrom, t.size]⟩

/-- Every record changed by `f`. -/
def map (f : α → β) (t : Table n α) : Table n β := t.mapIdx fun _ a => f a

end Table
end Sys2Proof
end

