-- ==== Sys2Proof/Syntax.lean ====
section
/-! DEFINITION. The commands of the KS580: one constructor of `Instr` for each row of spec/opcode_table.json.
A request carries its port, its sequence number (R169) and the fields of section 12.3 as their frame gives them, before any
range check; a frame on a branch or a border link carries the fields of sections 12.4 and 12.5. -/

namespace Sys2Proof

/-- The three senses of a robot (R146): each set or clear. -/
structure Senses where
  theta : Bool
  phi : Bool
  contact : Bool
deriving DecidableEq, Repr

/-- The robot state of a STATUS reply (section 12.6). -/
inductive RobotState where
  | idle | running | done | stopped
deriving DecidableEq, Repr

/-- The contents of a STATUS reply (section 12.4): state, executed counts, datum-found mark, senses. -/
structure StatusReply where
  state : RobotState
  dTheta : Int
  dPhi : Int
  datumFound : Bool
  senses : Senses
deriving DecidableEq, Repr

/-- The reason of a REFUSE (R117). -/
inductive RefuseReason where
  | busy | blocked
deriving DecidableEq, Repr

/-- The segment descriptor as its frame carries it (R194): every field, of whatever kind. -/
structure Descriptor where
  slot : Nat
  kind : Nat
  dTheta : Int
  dPhi : Int
  axis : Nat
  duration : Nat
  rate : Nat
  sweep : List Nat
  ends : List Nat
  tag : Nat
deriving DecidableEq, Repr

/-- A border-table entry as WRITE_STORE carries it (section 12.3). -/
structure RawBorder where
  cell : Nat
  link : Nat
  theirs : Nat
  home : Nat
deriving DecidableEq, Repr

/-- A retired-set entry as WRITE_STORE carries it (section 12.3). -/
structure RawRetired where
  theta : Nat
  phi : Nat
  cells : List Nat
deriving DecidableEq, Repr

/-- A received request frame that spells no request: it fails its check, or its form (R169, first and third checks), or it is a
WRITE_STORE whose item code is none of the six, which its owning rule refuses (R185, R193; log 49). -/
inductive BadFrame where
  | failedCheck
  | wrongForm (code seq : Nat)
  | unknownItem (seq : Nat)
deriving DecidableEq, Repr

/-- The level of a port's two role straps (R168). -/
abbrev Straps := Table 3 (Fin 4)

/-- The commands, in the order of spec/opcode_table.json. `powerOn` and `resetLineRelease` carry the levels of the role straps as
their reset event finds them (R168; log 5). -/
inductive Instr where
  | openBatch (p : PortId) (seq : Nat) (id : Nat)
  | loadSegment (p : PortId) (seq : Nat) (d : Descriptor)
  | commitBatch (p : PortId) (seq : Nat) (id : Nat)
  | cancelOpen (p : PortId) (seq : Nat)
  | abortBatch (p : PortId) (seq : Nat) (id : Nat)
  | ackLoadError (p : PortId) (seq : Nat)
  | queryBatch (p : PortId) (seq : Nat) (id : Nat)
  | hold (p : PortId) (seq : Nat)
  | resume (p : PortId) (seq : Nat)
  | stop (p : PortId) (seq : Nat)
  | queryQueue (p : PortId) (seq : Nat)
  | querySlot (p : PortId) (seq : Nat) (slot : Nat)
  | clearFault (p : PortId) (seq : Nat) (slot : Nat)
  | retire (p : PortId) (seq : Nat) (slot : Nat)
  | unretire (p : PortId) (seq : Nat) (slot : Nat)
  | storeRetired (p : PortId) (seq : Nat)
  | measure (p : PortId) (seq : Nat) (slot theta phi : Nat) (cells : List Nat)
  | setFootprint (p : PortId) (seq : Nat) (slot : Nat) (cells : List Nat)
  | loadTrim (p : PortId) (seq : Nat) (d : Descriptor)
  | streamPositions (p : PortId) (seq : Nat) (first count : Nat)
  | streamArm (p : PortId) (seq : Nat) (first count : Nat)
  | streamStop (p : PortId) (seq : Nat)
  | readSense (p : PortId) (seq : Nat) (slot : Nat)
  | clearChange (p : PortId) (seq : Nat) (slot : Nat)
  | setSenseWatch (p : PortId) (seq : Nat) (slot : Nat) (watch : Byte)
  | queryCell (p : PortId) (seq : Nat) (cell : Nat)
  | takeBranch (p : PortId) (seq : Nat) (branch : Nat)
  | giveBranch (p : PortId) (seq : Nat) (branch : Nat)
  | directFrame (p : PortId) (seq : Nat) (branch drop : Nat) (bytes : List Byte)
  | census (p : PortId) (seq : Nat)
  | queryBranch (p : PortId) (seq : Nat) (branch : Nat)
  | reclaimBorder (p : PortId) (seq : Nat) (link : Nat)
  | queryLink (p : PortId) (seq : Nat) (link : Nat)
  | setTimebase (p : PortId) (seq : Nat) (us : Nat)
  | writeStoreSectorId (p : PortId) (seq : Nat) (id : Nat)
  | writeStoreFixedList (p : PortId) (seq : Nat) (cells : List Nat)
  | writeStorePatrolSet (p : PortId) (seq : Nat) (slot : Nat) (cells : List Nat)
  | writeStoreBorderEntry (p : PortId) (seq : Nat) (place : Nat) (entry : Option RawBorder)
  | writeStoreRetiredEntry (p : PortId) (seq : Nat) (slot : Nat) (entry : Option RawRetired)
  | writeStoreClear (p : PortId) (seq : Nat)
  | resetSector (p : PortId) (seq : Nat)
  | subscribe (p : PortId) (seq : Nat) (kinds : Byte)
  | queryNotices (p : PortId) (seq : Nat)
  | badRequestFrame (p : PortId) (bad : BadFrame)
  | portFrameSent (p : PortId)
  | scan
  | ack (b : BranchId) (d : DropId)
  | nakBusy (b : BranchId) (d : DropId)
  | status (b : BranchId) (d : DropId) (r : StatusReply)
  | roll (b : BranchId) (d : DropId)
  | branchFrameDiscarded (b : BranchId)
  | replyWindowEnd (b : BranchId) (received : List Byte)
  | settleEnd (b : BranchId) (d : DropId)
  | nakBusyWaitEnd (b : BranchId) (d : DropId)
  | statusCallDue (b : BranchId) (d : DropId)
  | stallLimit (b : BranchId) (d : DropId)
  | idleCallDue (b : BranchId) (d : DropId)
  | dwellTimerEnd (n : SlotId)
  | backoffEnd (n : SlotId)
  | claimAnswerTimeout (k : LinkId)
  | syncTimeout (k : LinkId)
  | claim (k : LinkId) (sender : SectorId) (number : Byte) (cells : List Nat)
  | grant (k : LinkId) (sender : SectorId) (number : Byte)
  | refuse (k : LinkId) (sender : SectorId) (number : Byte) (reason : RefuseReason)
  | release (k : LinkId) (sender : SectorId) (cells : List Nat)
  | sync (k : LinkId) (sender : SectorId)
  | syncReport (k : LinkId) (sender : SectorId) (lent borrowed : List Nat)
  | borderFrameDiscarded (k : LinkId)
  | stopLineAssert
  | stopLineRelease
  | powerOn (straps : Straps)
  | resetLineAssert
  | resetLineRelease (straps : Straps)
  | loadPhaseEnd
deriving DecidableEq, Repr

end Sys2Proof
end

