-- ==== Sys2Proof/Config.lean ====
section
/-! DEFINITION. The configuration image of the KS580 (R182) and the four values the spec leaves to the part: uninterpreted
constants, of which no proof can know the value. -/

namespace Sys2Proof

/-- The home of a border cell (R26): LOCAL is this sector, REMOTE the neighbour. -/
inductive Home where
  | here | remote
deriving DecidableEq, Repr

/-- A border-table entry (R26): the local cell, its link, the neighbour's number for it, its home. -/
structure BorderEntry where
  cell : CellId
  link : LinkId
  theirs : CellId
  home : Home
deriving DecidableEq, Repr

/-- A retired-set entry (section 1.8): the slot is its place. -/
structure RetiredEntry where
  theta : Theta
  phi : Phi
  cells : List CellId
deriving DecidableEq, Repr

/-- The items of the configuration image, without its check (R182). -/
structure Image where
  sectorId : SectorId
  fixed : List CellId
  patrol : Table 96 (Option (List CellId))
  border : Table 256 (Option BorderEntry)
  retired : Table 96 (Option RetiredEntry)
deriving DecidableEq, Repr

/-- The blank value of every item (R182). -/
def Image.blank : Image :=
  { sectorId := 0, fixed := [], patrol := .fill 96 none, border := .fill 256 none, retired := .fill 96 none }

/-- The check of the image: a value computed over every item (R182).
The spec does not give the function; DESIGN CHOICE, log 6. -/
opaque Config.storeCheck : Image → Nat

/-- The rest-state byte of QUERY_SLOT for an ABSENT or RETIRED slot: R6 gives such a slot no rest state.
DESIGN CHOICE, log 19. -/
opaque Config.noRestState : Byte

/-- The levels of the three ports' role straps as the reset event of the `k`-th RESET_SECTOR finds them (R168, R187): pins of the
outside, a free value. DESIGN CHOICE, log 5. -/
opaque Config.strapLevels (k : Nat) : PortId → Fin 4

/-- The two bytes of a time in ms that two bytes do not hold (QUERY_BRANCH, section 12.3): the spec states none.
DESIGN CHOICE, log 37. -/
opaque Config.longTime : Nat → BitVec 16

end Sys2Proof
end

