-- ==== Sys2Proof/Machine/State.lean ====
section
/-! DEFINITION. The state of the KS580, block by block (spec/00_scope.md, Block Overview), and its value right after a
power-on reset with a blank store. Plain data. -/

namespace Sys2Proof.Machine

/-! ### Names of the code tables (section 12.6) -/

/-- A port's role (R168). -/
inductive Role where
  | plan | metro | service
deriving DecidableEq, Repr

/-- The nine slot states (section 1.2). -/
inductive SlotState where
  | absent | unknown | parked | waiting | moving | dwelling | stranded | faulted | retired
deriving DecidableEq, Repr

/-- The six fault codes (section 1.6). -/
inductive FaultCode where
  | noReply | short | contact | stalled | datumMissing | countRange
deriving DecidableEq, Repr

/-- The axis of a DATUM (R44). -/
inductive Axis where
  | theta | phi | both
deriving DecidableEq, Repr

/-- The reasons of FAILED (R46). -/
inductive FailReason where
  | short | collided | interrupted | noReply | stalled | datumMissing
deriving DecidableEq, Repr

/-- The reasons of SKIPPED (R46). -/
inductive SkipReason where
  | aborted | batchFailed | faultDrop
deriving DecidableEq, Repr

/-- The outcome a closed segment carries (R46). -/
inductive SegOutcome where
  | done
  | failed (r : FailReason)
  | skipped (r : SkipReason)
deriving DecidableEq, Repr

/-- The states of a segment that is not FREE (R46). -/
inductive SegState where
  | staged | chained | granted | active
deriving DecidableEq, Repr

/-- The batch states (R51). -/
inductive BatchState where
  | opened | running | aborting | done | aborted
deriving DecidableEq, Repr

/-- The sector states (R67). -/
inductive SectorState where
  | unconfigured | starting | hold | run | stopping | stopped
deriving DecidableEq, Repr

/-- The link states (R119). -/
inductive LinkState where
  | unsynced | up | down
deriving DecidableEq, Repr

/-- The access states of a branch (R90). -/
inductive Access where
  | own | taking | taken
deriving DecidableEq, Repr

/-- How the claim that ended last on a link ended (R116). -/
inductive ClaimEnd where
  | granted | refusedBusy | refusedBlocked | timedOut | released
deriving DecidableEq, Repr

/-- The start-up phases (R188). -/
inductive Phase where
  | load | halt | census | sync | done
deriving DecidableEq, Repr

/-- The result codes of an answer, in the order of R175. -/
inductive Result where
  | ok | portBusy | role | badArg | loadErrorSet | noBatch | dupId | tableFull | poolEmpty
  | chainFull | absent | retired | faulted | busy | state | keepout | twoLinks | conflict
  | notSubset | noTimebase | alreadySet | unconfigured | stopActive | notTaken | taken | streaming | linkUp
deriving DecidableEq, Repr

/-- The requests of the master list (R174), in its order. -/
inductive ReqCode where
  | openBatch | loadSegment | commitBatch | cancelOpen | abortBatch | ackLoadError | queryBatch | hold | resume | stop
  | queryQueue | querySlot | clearFault | retire | unretire | storeRetired | measure | setFootprint | loadTrim
  | streamPositions | streamArm | streamStop | readSense | clearChange | setSenseWatch | queryCell | takeBranch
  | giveBranch | directFrame | census | queryBranch | reclaimBorder | queryLink | setTimebase | writeStore | resetSector
  | subscribe | queryNotices
deriving DecidableEq, Repr

/-! ### Slots, cells and segments -/

/-- Where a robot stands (R2, R3): position not known and no rest cells; or a known position with a footprint; or a known
position with a stranded sweep. -/
inductive Stand where
  | lost
  | footprint (theta : Theta) (phi : Phi) (cells : List CellId)
  | sweep (theta : Theta) (phi : Phi) (cells : List CellId)
deriving DecidableEq, Repr

/-- A slot record (R1). -/
structure Slot where
  populated : Bool
  state : SlotState
  stand : Stand
  patrol : List CellId
  fault : Option FaultCode
  chain : List SegId
deriving DecidableEq, Repr

/-- The owner of a cell (R24). -/
inductive Owner where
  | free
  | held (n : SlotId)
  | pending (n : SlotId)
  | fixed
  | lent (k : LinkId)
  | blocked (k : LinkId)
  | away (k : LinkId)
  | orphan (k : LinkId)
deriving DecidableEq, Repr

/-- A cell record (R24). -/
structure Cell where
  owner : Owner
  shadow : Nat
deriving DecidableEq, Repr

/-- What a segment orders, by its kind, with the fields that kind keeps (R44, R45). -/
inductive SegBody where
  | move (dTheta dPhi : Int) (rate : Fin 4) (sweep ends : List CellId)
  | trim (dTheta dPhi : Int) (rate : Fin 4) (sweep ends : List CellId)
  | datum (axis : Axis) (rate : Fin 4) (sweep ends : List CellId)
  | dwell (ms : Nat)
deriving DecidableEq, Repr

/-- A segment record that is not FREE (R44). -/
structure Segment where
  slot : SlotId
  body : SegBody
  tag : Nat
  batch : Option Nat
  state : SegState
  continuation : Bool
deriving DecidableEq, Repr

/-- A batch record that is not free (R51). -/
structure Batch where
  id : Nat
  state : BatchState
  loaded : Nat
  pending : Nat
  done : Nat
  failed : Nat
  skipped : Nat
  staging : List SegId
  endOrder : Option Nat
deriving DecidableEq, Repr

/-! ### Grant Unit -/

/-- An entry of the grant queue (R73); a running backoff holds the time it ends. -/
structure QEntry where
  slot : SlotId
  passOver : Nat
  pendingClaim : Bool
  backoff : Option Nat
  claimLink : Option LinkId
deriving DecidableEq, Repr

/-! ### Branch Controllers -/

/-- A step order (R94) with what its sending has come to: the keep-energized mark once it is fixed (R95), the retry counter
of its next attempt, whether an attempt drew NAK-busy, and the end of a NAK-busy wait (R97). -/
structure Order where
  seg : SegId
  drop : DropId
  period : Nat
  continuation : Bool
  keep : Option Bool
  left : Nat
  naked : Bool
  wait : Option Nat
deriving DecidableEq, Repr

/-- What a status call is made for: a regular poll (R98), the final call (R100), the idle sweep (R107). -/
inductive Purpose where
  | poll | final | idle
deriving DecidableEq, Repr

/-- An entry of the transaction queue (R90). -/
inductive Entry where
  | order (o : Order)
  | status (d : DropId) (w : Purpose)
  | roll (d : DropId)
  | direct (d : DropId) (bytes : List Byte)
deriving DecidableEq, Repr

/-- A call on the bus (R91). -/
inductive Call where
  | halt
  | entry (e : Entry)
deriving DecidableEq, Repr

/-- The transaction in progress with its retry counter (R90, R91). -/
structure Transaction where
  call : Call
  left : Nat
deriving DecidableEq, Repr

/-- A poll-list entry (R90), with the mark and step period its order was sent with (R95, R100), whether it is due (R98) and
whether its final call is still to be queued (R100). -/
structure PollEntry where
  drop : DropId
  seg : SegId
  period : Nat
  keep : Bool
  ackTime : Nat
  lastCall : Nat
  due : Bool
  haltMark : Bool
  finalMark : Bool
  finalWanted : Bool
deriving DecidableEq, Repr

/-- The per-drop state of a branch (R90, R96, R107). -/
structure Drop where
  energized : Bool
  lastDone : Option Nat
  settling : Bool
  idleTime : Option Nat
  idleDue : Bool
deriving DecidableEq, Repr

/-- A Branch Controller (R90). `callAt` is when the call now on the bus was sent, from which its reply window runs (R91). -/
structure Branch where
  queue : List Entry
  haltPlace : Bool
  backlog : List Order
  bus : Option Transaction
  callAt : Nat
  poll : List PollEntry
  halting : Bool
  access : Access
  drops : Table 24 Drop
  direct : Option (DropId × List Byte)
  rollsLeft : List DropId
  rollsDone : Nat
deriving DecidableEq, Repr

/-- The census running (R109, R110). -/
inductive Census where
  | none | startup | service
deriving DecidableEq, Repr

/-! ### Border Exchange -/

/-- The frames of a border link (R117); every cell number is the receiver's own. -/
inductive BorderFrame where
  | claim (number : Byte) (cells : List CellId)
  | grant (number : Byte)
  | refuse (number : Byte) (reason : RefuseReason)
  | release (cells : List CellId)
  | sync
  | syncReport (lent borrowed : List CellId)
deriving DecidableEq, Repr

/-- The outstanding claim of a link (R123); `deadline` is the end of its answer timer. -/
structure Claim where
  number : Byte
  slot : SlotId
  seg : SegId
  cells : List CellId
  theirs : List CellId
  withdrawn : Bool
  deadline : Nat
deriving DecidableEq, Repr

/-- A border link (R116). `sent` is the model's record of the frames made on the link, in order (log 7). -/
structure Link where
  state : LinkState
  syncOwed : Bool
  neighbour : Option SectorId
  timeouts : Nat
  syncTimer : Option Nat
  claim : Option Claim
  nextClaim : Byte
  history : Table 256 (List CellId)
  lastEnd : Option (Byte × ClaimEnd)
  sent : List (SectorId × BorderFrame)
deriving DecidableEq, Repr

/-! ### Sense Monitor and Position Stream -/

/-- A sense record (R146): present senses with their taken time. The watch set is held as the three senses, set when watched. -/
structure SenseRec where
  present : Option (Senses × Nat)
  snapshot : Option Senses
  watch : Senses
  changed : Bool
deriving DecidableEq, Repr

/-- A running position stream (R141). -/
structure Run where
  first : Nat
  count : Nat
  sent : Nat
deriving DecidableEq, Repr

/-- An armed range (R141). -/
structure Range where
  first : Nat
  count : Nat
deriving DecidableEq, Repr

/-! ### Ports and notices -/

/-- The notice kinds 1 to 8 (R176). -/
inductive NoticeKind where
  | segDone | segFailed | batchEnd | slotFault | senseChange | streamEnd | linkState | sectorState
deriving DecidableEq, Repr

/-- A notice (R176). -/
inductive Notice where
  | segDone (n : SlotId) (tag : Nat) (batch : Option Nat)
  | segFailed (n : SlotId) (tag : Nat) (batch : Option Nat) (r : FailReason)
  | batchEnd (batch loaded done failed skipped : Nat) (aborted : Bool)
  | slotFault (n : SlotId) (code : FaultCode)
  | senseChange (n : SlotId) (s : Senses)
  | streamEnd (sent : Nat) (stopped : Bool)
  | linkState (k : LinkId) (st : LinkState)
  | sectorState (st : SectorState)
  | summary (kind : NoticeKind) (count : Nat)
deriving DecidableEq, Repr

/-- A position record (R143). -/
structure PosRecord where
  index : Nat
  slot : SlotId
  state : SlotState
  pos : Option (Theta × Phi)
  fault : Option FaultCode
  tag : Option Nat
deriving DecidableEq, Repr

/-- A batch record as QUERY_BATCH gives it (R65). -/
structure BatchView where
  id : Nat
  state : BatchState
  loaded : Nat
  staged : Nat
  pending : Nat
  done : Nat
  failed : Nat
  skipped : Nat
deriving DecidableEq, Repr

/-- A grant-queue entry as QUERY_QUEUE gives it (R89). -/
structure QueueView where
  slot : SlotId
  passOver : Nat
  barrier : Bool
  pendingClaim : Bool
  backoff : Bool
  claimLink : Option LinkId
deriving DecidableEq, Repr

/-- A slot record as QUERY_SLOT gives it (R23); no rest state where R6 gives none. -/
structure SlotView where
  state : SlotState
  rest : Option SlotState
  populated : Bool
  stand : Stand
  inQueue : Bool
  fault : Option FaultCode
  chainLength : Nat
  granted : List (Nat × SegState)
deriving DecidableEq, Repr

/-- A cell record as QUERY_CELL gives it (R43). -/
structure CellView where
  owner : Owner
  shadow : Nat
  fixed : Bool
  border : Option BorderEntry
deriving DecidableEq, Repr

/-- A queue entry of a branch as QUERY_BRANCH gives it (R114): its kind by number (section 12.6), its drop, and for a step
order its slot, whether it is a continuation and whether it is ready. -/
structure EntryView where
  kind : Nat
  drop : Option DropId
  slot : Option SlotId
  continuation : Bool
  ready : Bool
deriving DecidableEq, Repr

/-- A poll-list entry as QUERY_BRANCH gives it (R114); the time left is in ms. -/
structure PollView where
  drop : DropId
  slot : SlotId
  tag : Option Nat
  haltMark : Bool
  finalMark : Bool
  msLeft : Nat
deriving DecidableEq, Repr

/-- A branch as QUERY_BRANCH gives it (R114). -/
structure BranchView where
  access : Access
  halting : Bool
  entries : List EntryView
  backlog : List SlotId
  bus : Option (Nat × Option DropId × Nat)
  poll : List PollView
  drops : List (Bool × Option Nat)
deriving DecidableEq, Repr

/-- A link as QUERY_LINK gives it (R133): with the claim, the ms left on its answer timer; and the cell counts BLOCKED, LENT,
AWAY, ORPHAN, HELD. -/
structure LinkView where
  state : LinkState
  syncOwed : Bool
  timeouts : Nat
  neighbour : Option SectorId
  claim : Option Claim
  msLeft : Nat
  lastEnd : Option (Byte × ClaimEnd)
  counts : List Nat
deriving DecidableEq, Repr

/-- A port's notice state as QUERY_NOTICES gives it (R180). -/
structure NoticesView where
  port : PortId
  role : Role
  subs : Byte
  queued : Nat
  heldOver : List Nat
deriving DecidableEq, Repr

/-- The fields of an answer (section 12.3 and note 1 of section 12.2). -/
inductive AnswerFields where
  | none
  | segment (id : SegId)
  | slotNamed (n : SlotId)
  | timebase (us : Nat)
  | noBatch (loadError : Bool) (free : Nat)
  | batch (loadError : Bool) (free : Nat) (b : BatchView) (staging : List (SlotId × Nat))
  | batchTable (loadError : Bool) (free : Nat) (rows : List BatchView)
  | queue (st : SectorState) (stopLine : Bool) (rows : List QueueView)
  | slot (v : SlotView)
  | stored (count : Nat)
  | senses (present : Option (Senses × Nat)) (watch : Senses) (changed : Bool)
  | changedBefore (was : Bool)
  | cell (v : CellView)
  | reply (bytes : List Byte)
  | branch (v : BranchView)
  | link (v : LinkView)
  | written (sets : Nat) (valid : Bool)
  | notices (v : NoticesView)
deriving DecidableEq, Repr

/-- An answer frame (section 12.2); `own` marks the answer of the request in hand, the others are PORT_BUSY (R170). -/
structure Answer where
  own : Bool
  code : Nat
  seq : Nat
  result : Result
  fields : AnswerFields
deriving DecidableEq, Repr

/-- A frame on a port's line (section 12.2). -/
inductive PortFrame where
  | answer (a : Answer)
  | notice (n : Notice)
  | record (r : PosRecord)
deriving DecidableEq, Repr

/-- Which of the two kinds the send side sent last (R168, R173). -/
inductive SentKind where
  | notice | record
deriving DecidableEq, Repr

/-- The request held for its answer (R168). -/
structure InHand where
  code : Nat
  seq : Nat
deriving DecidableEq, Repr

/-- A request port with its notice state (R168, R173, R176); a disabled port has no role. -/
structure Port where
  role : Option Role
  busy : Bool
  inHand : Option InHand
  answers : List Answer
  lastKind : SentKind
  sending : Option PortFrame
  notices : List Notice
  subs : Byte
  heldOver : Table 8 Nat
deriving DecidableEq, Repr

/-! ### The store and the whole part -/

/-- The configuration store: the image and its check (R182). -/
structure Store where
  image : Image
  check : Nat
deriving DecidableEq, Repr

/-- The state of the part. -/
structure State where
  -- Configuration Store (R182) and the working copies of its items (R183)
  store : Store
  sectorId : SectorId
  fixed : List CellId
  border : List BorderEntry
  retired : Table 96 (Option RetiredEntry)
  -- Positioner Table (R1) and Cell Map (R24)
  slots : Table 96 Slot
  cells : Table 2048 Cell
  -- Segment Store (R44, R48, R51, R56)
  pool : Table 1024 (Option Segment)
  free : List SegId
  batches : Table 4 (Option Batch)
  endCount : Nat
  loadError : Bool
  -- Grant Unit (R67, R73, R76, R86, R155, R160)
  sector : SectorState
  queue : List QEntry
  scanDue : Bool
  dwell : Table 96 (Option Nat)
  haltOut : List BranchId
  startStop : Bool
  stopLine : Bool
  -- Branch Controllers (R90), the census (R109, R110) and Border Exchange (R116)
  branches : Table 4 Branch
  census : Census
  links : Table 4 Link
  -- Sense Monitor (R146) and Position Stream (R141)
  senses : Table 96 SenseRec
  stream : Option Run
  armed : Option Range
  -- ports and notices (R168, R176), the straps as last read, the RESET_SECTORs that have read them (the model's own, log 5)
  straps : Straps
  strapReads : Nat
  ports : Table 3 Port
  -- start-up, timebase, RESET line (R187, R188, R190)
  phase : Phase
  timebase : Option Nat
  resetHeld : Bool
  -- the model's own: the clock in microseconds (log 1) and the commands waiting (log 28)
  now : Nat
  pending : List Instr
deriving DecidableEq, Repr

/-! ### The state after reset -/

/-- A slot record after a reset, for a slot not in the stored retired set (R22). -/
def Slot.atReset : Slot :=
  { populated := false, state := .absent, stand := .lost, patrol := [], fault := none, chain := [] }

/-- The per-drop state after a reset (R90). -/
def Drop.atReset : Drop :=
  { energized := false, lastDone := none, settling := false, idleTime := none, idleDue := false }

/-- A branch after a reset (R90). -/
def Branch.atReset : Branch :=
  { queue := [], haltPlace := false, backlog := [], bus := none, callAt := 0, poll := [], halting := false, access := .own,
    drops := .fill 24 .atReset, direct := none, rollsLeft := [], rollsDone := 0 }

/-- A link after a reset (R116). -/
def Link.atReset : Link :=
  { state := .unsynced, syncOwed := true, neighbour := none, timeouts := 0, syncTimer := none, claim := none,
    nextClaim := 0, history := .fill 256 [], lastEnd := none, sent := [] }

/-- A sense record after power-on (R154). -/
def SenseRec.atPowerOn : SenseRec :=
  { present := none, snapshot := none, watch := ⟨false, false, false⟩, changed := false }

/-- The default subscription set of a role (R181): bit k - 1 stands for kind k (section 12.2). -/
def Role.defaultSubs : Role → Byte
  | .plan => 0b11001110
  | .metro => 0b00111100
  | .service => 0b11001000

/-- A port after a reset, with its role (R168, R181). -/
def Port.atReset (role : Option Role) : Port :=
  { role := role, busy := false, inHand := none, answers := [], lastKind := .notice, sending := none, notices := [],
    subs := (role.map Role.defaultSubs).getD 0, heldOver := .fill 8 0 }

/-- The part right after the power-on reset event with a blank store: the image fails R183's second test, so the sector is
UNCONFIGURED and the working state is that of R184. Straps 1, 2, 3 and both lines released: DESIGN CHOICE, log 5. -/
def State.reset : State :=
  { store := { image := .blank, check := Config.storeCheck .blank }, sectorId := 0, fixed := [], border := [],
    retired := .fill 96 none, slots := .fill 96 .atReset, cells := .fill 2048 { owner := .free, shadow := 0 },
    pool := .fill 1024 none, free := List.finRange 1024, batches := .fill 4 none, endCount := 0, loadError := false,
    sector := .unconfigured, queue := [], scanDue := false, dwell := .fill 96 none, haltOut := [], startStop := false,
    stopLine := false, branches := .fill 4 .atReset, census := .none, links := .fill 4 .atReset,
    senses := .fill 96 .atPowerOn, stream := none, armed := none, straps := ⟨[1, 2, 3], rfl⟩, strapReads := 0,
    ports := ⟨[.atReset (some .plan), .atReset (some .metro), .atReset (some .service)], rfl⟩, phase := .load,
    timebase := none, resetHeld := false, now := 0, pending := [] }

/-- Why a step can stop the part with a fault: the spec gives the KS580 no event that stops it, so there is no reason and
this type has no constructor. -/
inductive Fault where
deriving DecidableEq, Repr

/-- Why a command has no meaning. -/
inductive Refusal where
  /-- raised by `exec`'s arm for a command that has no meaning yet (none at present); safe: no claim about it can be proved -/
  | notModelled (mnemonic : String)
deriving DecidableEq, Repr

end Sys2Proof.Machine
end

