-- ==== Sys2Proof/Machine/Ops.lean ====
section
/-! DEFINITION. The named operations the meanings share: reading and writing records, notices, positions, the cell map, closing
segments and batches, the grant queue. -/

namespace Sys2Proof.Machine

/-! ### Times, in microseconds of `State.now` -/

/-- `n` milliseconds. -/
def ms (n : Nat) : Nat := n * 1000
/-- The reply window of a call (R91). -/
def windowTime : Nat := ms 2
/-- Settle after a DONE (R96). -/
def settleTime : Nat := ms 40
/-- The hold after a NAK-busy (R97). -/
def nakWait : Nat := ms 20
/-- The spacing of status calls to a poll-list drop (R98). -/
def statusSpacing : Nat := ms 20
/-- The spacing of idle calls to a drop (R107). -/
def idleSpacing : Nat := ms 500
/-- The backoff of a refused claim (R82). -/
def backoffTime : Nat := ms 100
/-- The answer timer of a claim (R123). -/
def claimTime : Nat := ms 50
/-- The sync timer of a link (R120). -/
def syncTime : Nat := ms 50

/-- A timer's end is taken: the clock stands at that time or later (log 1). -/
def State.clockTo (s : State) (t : Nat) : State := { s with now := max s.now t }

/-! ### Lists -/

/-- The first entry that passes `p`, with the list it leaves. -/
def takeFirst {α : Type} (p : α → Bool) : List α → Option (α × List α)
  | [] => none
  | a :: l => if p a then some (a, l) else (takeFirst p l).map fun r => (r.1, a :: r.2)

/-- `a` put into an ordered list. -/
def insertBy {α : Type} (le : α → α → Bool) (a : α) : List α → List α
  | [] => [a]
  | b :: l => if le a b then a :: b :: l else b :: insertBy le a l

/-- A list put in order. -/
def sortBy {α : Type} (le : α → α → Bool) (l : List α) : List α := l.foldr (insertBy le) []

/-- Place `i` is named in the list. -/
def named (i : Nat) (l : List CellId) : Bool := l.any fun c => c.val == i

/-- Every slot, in increasing order. -/
def allSlots : List SlotId := List.finRange 96
/-- Every branch, in increasing order. -/
def allBranches : List BranchId := List.finRange 4
/-- Every drop of a branch, in increasing order. -/
def allDrops : List DropId := List.finRange 24
/-- Every link, in increasing order. -/
def allLinks : List LinkId := List.finRange 4
/-- Every port, in increasing order. -/
def allPorts : List PortId := List.finRange 3

/-! ### Slots, branches and drops (R1) -/

/-- The slot at a drop: branch times 24, plus drop (R1). -/
def slotOf (b : BranchId) (d : DropId) : SlotId := ⟨b.val * 24 + d.val, by omega⟩
/-- The branch of a slot. -/
def branchOf (n : SlotId) : BranchId := ⟨n.val / 24, by omega⟩
/-- The drop of a slot on its branch. -/
def dropOf (n : SlotId) : DropId := ⟨n.val % 24, by omega⟩

/-! ### Records -/

def State.slot (s : State) (n : SlotId) : Slot := s.slots.get n
def State.updSlot (s : State) (n : SlotId) (f : Slot → Slot) : State := { s with slots := s.slots.upd n f }
def State.cell (s : State) (c : CellId) : Cell := s.cells.get c
def State.updCells (s : State) (f : Nat → Cell → Cell) : State := { s with cells := s.cells.mapIdx f }
def State.seg (s : State) (id : SegId) : Option Segment := s.pool.get id
def State.updSeg (s : State) (id : SegId) (f : Segment → Segment) : State :=
  { s with pool := s.pool.upd id (Option.map f) }
def State.branch (s : State) (b : BranchId) : Branch := s.branches.get b
def State.updBranch (s : State) (b : BranchId) (f : Branch → Branch) : State := { s with branches := s.branches.upd b f }
def State.link (s : State) (k : LinkId) : Link := s.links.get k
def State.updLink (s : State) (k : LinkId) (f : Link → Link) : State := { s with links := s.links.upd k f }
def State.port (s : State) (p : PortId) : Port := s.ports.get p
def State.updPort (s : State) (p : PortId) (f : Port → Port) : State := { s with ports := s.ports.upd p f }
def State.sense (s : State) (n : SlotId) : SenseRec := s.senses.get n
def State.updSense (s : State) (n : SlotId) (f : SenseRec → SenseRec) : State := { s with senses := s.senses.upd n f }

/-! ### Notices (R176, R177) -/

/-- The place of a kind in the held-over counts and the subscription set: kind number less 1 (R176, section 12.2). -/
def NoticeKind.idx : NoticeKind → Fin 8
  | .segDone => 0 | .segFailed => 1 | .batchEnd => 2 | .slotFault => 3
  | .senseChange => 4 | .streamEnd => 5 | .linkState => 6 | .sectorState => 7

/-- The kinds in increasing kind number. -/
def NoticeKind.all : List NoticeKind :=
  [.segDone, .segFailed, .batchEnd, .slotFault, .senseChange, .streamEnd, .linkState, .sectorState]

/-- The kind of a notice; a SUMMARY is no kind of a subscription set (R176). -/
def Notice.kind : Notice → Option NoticeKind
  | .segDone .. => some .segDone | .segFailed .. => some .segFailed | .batchEnd .. => some .batchEnd
  | .slotFault .. => some .slotFault | .senseChange .. => some .senseChange | .streamEnd .. => some .streamEnd
  | .linkState .. => some .linkState | .sectorState .. => some .sectorState | .summary .. => none

/-- A kind is in the port's subscription set. -/
def Port.subscribed (p : Port) (k : NoticeKind) : Bool := p.subs.getLsbD k.idx.val

/-- The length of a notice queue (R176). -/
def noticeRoom : Nat := 32

/-- A kind's held-over count rises by 1, up to 255 (R177). -/
def Port.holdOver (p : Port) (k : NoticeKind) : Port :=
  { p with heldOver := p.heldOver.upd k.idx fun c => min 255 (c + 1) }

/-- A raised notice is offered to a port (R177); a disabled port has no notice queue (R168), and STREAM_END is offered to the
METRO port alone. -/
def Port.offer (nt : Notice) (p : Port) : Port :=
  match p.role, nt.kind with
  | some r, some k =>
    if k = .streamEnd ∧ r ≠ .metro then p
    else if p.subscribed k ∧ p.notices.length < noticeRoom then { p with notices := p.notices ++ [nt] }
    else p.holdOver k
  | _, _ => p

/-- A block raises a notice (R177). -/
def State.raise (s : State) (nt : Notice) : State := { s with ports := s.ports.map (Port.offer nt) }

/-- The sector state changes and SECTOR_STATE is raised (R67). -/
def State.enterSector (s : State) (st : SectorState) : State :=
  State.raise { s with sector := st } (.sectorState st)

/-- A scan is started, in RUN only (R76). -/
def State.causeScan (s : State) : State := { s with scanDue := s.scanDue || decide (s.sector = .run) }

/-! ### Where a robot stands (R2, R3, R6) -/

/-- Position known. -/
def Stand.known : Stand → Bool
  | .lost => false | .footprint .. => true | .sweep .. => true

/-- The position, when known. -/
def Stand.pos : Stand → Option (Theta × Phi)
  | .lost => none | .footprint t f _ => some (t, f) | .sweep t f _ => some (t, f)

/-- The rest cells (R3). -/
def Stand.cells : Stand → List CellId
  | .lost => [] | .footprint _ _ c => c | .sweep _ _ c => c

/-- The rest state (R6). -/
def Stand.rest : Stand → SlotState
  | .lost => .unknown | .footprint .. => .parked | .sweep .. => .stranded

def State.posKnown (s : State) (n : SlotId) : Bool := (s.slot n).stand.known

/-- A position moved by signed step counts, when it stays in range (R2, R13). -/
def movePos (t : Theta) (f : Phi) (dTheta dPhi : Int) : Option (Theta × Phi) :=
  let x := (t.val : Int) + dTheta
  let y := (f.val : Int) + dPhi
  if h : (0 ≤ x ∧ x ≤ 24000) ∧ (0 ≤ y ∧ y ≤ 12000) then
    some (⟨x.toNat, by omega⟩, ⟨y.toNat, by omega⟩)
  else none

/-- The datumed axis or axes become 0 (R11). -/
def datumPos (a : Axis) (t : Theta) (f : Phi) : Theta × Phi :=
  match a with
  | .theta => (0, f) | .phi => (t, 0) | .both => (0, 0)

/-! ### Segments (R44, R45, R50) -/

/-- The sweep list; a DWELL has none. -/
def SegBody.sweep : SegBody → List CellId
  | .move _ _ _ w _ => w | .trim _ _ _ w _ => w | .datum _ _ w _ => w | .dwell _ => []

/-- The end list; a DWELL has none. -/
def SegBody.ends : SegBody → List CellId
  | .move _ _ _ _ e => e | .trim _ _ _ _ e => e | .datum _ _ _ e => e | .dwell _ => []

/-- A MOVE or a TRIM, with its rate class (R95). -/
def SegBody.stepRate : SegBody → Option (Fin 4)
  | .move _ _ r _ _ => some r | .trim _ _ r _ _ => some r | .datum .. => none | .dwell _ => none

def SegBody.isTrim : SegBody → Bool
  | .trim .. => true | _ => false

/-- A DATUM on axis BOTH (R74). -/
def SegBody.isDatumBoth : SegBody → Bool
  | .datum .both _ _ _ => true | _ => false

/-- A kind that may stand as a look-ahead, or ahead of one: MOVE, TRIM or DWELL (R74). -/
def SegBody.chains : SegBody → Bool
  | .datum .. => false | _ => true

/-- The working state of a slot whose active segment this is (R11). -/
def SegBody.workState : SegBody → SlotState
  | .dwell _ => .dwelling | _ => .moving

/-- The segments of a slot's chain, head first (R50). -/
def State.chainSegs (s : State) (n : SlotId) : List (SegId × Segment) :=
  (s.slot n).chain.filterMap fun id => (s.seg id).map fun g => (id, g)

/-- The GRANTED and ACTIVE segments of a slot (R5). -/
def State.grantedSegs (s : State) (n : SlotId) : List (SegId × Segment) :=
  (s.chainSegs n).filter fun x => x.2.state = .granted ∨ x.2.state = .active

/-- The granted count (R5). -/
def State.grantedCount (s : State) (n : SlotId) : Nat := (s.grantedSegs n).length

/-- The first ungranted segment of a slot (R73). -/
def State.firstUngranted (s : State) (n : SlotId) : Option (SegId × Segment) :=
  (s.chainSegs n).find? fun x => x.2.state = .chained

/-- The patrol sweep: the patrol set less the fixed list, together with the end list (R28; order by log 21). A FIXED cell that
another lost slot's patrol set shares does not bar it (log 61). -/
def State.patrolSweep (s : State) (n : SlotId) (ends : List CellId) : List CellId :=
  let inner := (s.slot n).patrol.filter fun c => c ∉ s.fixed
  inner ++ ends.filter fun c => c ∉ inner

/-- The sweep of a segment of slot `n` (R78): the patrol sweep for a DATUM of a slot whose position is not known. -/
def State.sweepOf (s : State) (n : SlotId) (g : Segment) : List CellId :=
  match g.body with
  | .datum _ _ w e => if s.posKnown n then w else s.patrolSweep n e
  | b => b.sweep

/-- What the held set of a slot is to be: its rest cells together with the sweep of each granted segment (R3, R27). -/
def State.keepCells (s : State) (n : SlotId) : List CellId :=
  (s.slot n).stand.cells ++ (s.grantedSegs n).flatMap fun x => s.sweepOf n x.2

/-! ### The cell map (R24 to R37) -/

/-- The border-table entry of a cell (R26). -/
def State.borderOf (s : State) (i : Nat) : Option BorderEntry := s.border.find? fun e => e.cell.val == i

/-- The cell that a number in a frame of link `k` names (R26, R117). -/
def State.cellOn (s : State) (k : LinkId) (i : Nat) : Option CellId :=
  (s.border.find? fun e => e.cell.val == i && decide (e.link = k)).map (·.cell)

/-- The neighbour's number for a border cell (R26). -/
def State.theirsOf (s : State) (c : CellId) : CellId := ((s.borderOf c.val).map (·.theirs)).getD c

/-- The owner of a cell that leaves a held set, by its home and shadow (R33). -/
def State.releasedOwner (s : State) (i : Nat) (shadow : Nat) : Owner :=
  match s.borderOf i with
  | some e =>
    match e.home with
    | .here => .free
    | .remote => if shadow = 0 then .away e.link else .orphan e.link
  | none => .free

/-- The held set of slot `n` loses every cell outside `keep` (R33, R34, R35). -/
def State.holdOnly (s : State) (n : SlotId) (keep : List CellId) : State :=
  s.updCells fun i r =>
    if r.owner = .held n ∧ named i keep = false then { r with owner := s.releasedOwner i r.shadow } else r

/-- The held set of slot `n` is made its rest cells together with the sweeps of its granted segments (R33, R34). -/
def State.rehold (s : State) (n : SlotId) : State := s.holdOnly n (s.keepCells n)

/-- Every cell of a list becomes HELD of slot `n` (R30, R37). -/
def State.takeCells (s : State) (n : SlotId) (l : List CellId) : State :=
  s.updCells fun i r => if named i l then { r with owner := .held n } else r

/-- Slot `n` casts its shadow: 1 more on every cell of its patrol set (R29). -/
def State.castShadow (s : State) (n : SlotId) : State :=
  s.updCells fun i r => if named i (s.slot n).patrol then { r with shadow := r.shadow + 1 } else r

/-- An orphan whose shadow is 0 goes back AWAY (R36). -/
def Cell.dropOrphan (r : Cell) : Cell :=
  match r.owner with
  | .orphan k => if r.shadow = 0 then { r with owner := .away k } else r
  | _ => r

/-- Slot `n`'s shadow is removed (R29); orphans it alone shadowed are released (R36). -/
def State.liftShadow (s : State) (n : SlotId) : State :=
  s.updCells fun i r => if named i (s.slot n).patrol then { r with shadow := r.shadow - 1 } else r

/-- The release of orphans after a shadow was lowered (R36). -/
def State.dropOrphans (s : State) : State := s.updCells fun _ r => r.dropOrphan

/-- Shadow from others, for slot `n` (R28). -/
def State.shadowFromOthers (s : State) (n : SlotId) (c : CellId) : Nat :=
  let sh := (s.cell c).shadow
  if c ∈ (s.slot n).patrol ∧ s.posKnown n = false then sh - 1 else sh

/-- The PENDING cells of slot `n` return to FREE (R31). -/
def State.freePending (s : State) (n : SlotId) : State :=
  s.updCells fun _ r => if r.owner = .pending n then { r with owner := .free } else r

/-! ### Border frames (R118) -/

/-- A frame is made on a link, with this sector's id (R117, R118). -/
def State.send (s : State) (k : LinkId) (f : BorderFrame) : State :=
  s.updLink k fun l => { l with sent := l.sent ++ [(s.sectorId, f)] }

/-- A RELEASE of cells of link `k`, in increasing order of this side's numbers (R118); none when no cell is named. -/
def State.sendRelease (s : State) (k : LinkId) (cells : List CellId) : State :=
  if cells.isEmpty then s
  else s.send k (.release ((sortBy (fun a b => decide (a ≤ b)) cells).map s.theirsOf))

/-! ### The grant queue (R73 to R75) -/

def State.entry (s : State) (n : SlotId) : Option QEntry := s.queue.find? fun e => decide (e.slot = n)
def State.inQueue (s : State) (n : SlotId) : Bool := s.queue.any fun e => decide (e.slot = n)
def State.updEntry (s : State) (n : SlotId) (f : QEntry → QEntry) : State :=
  { s with queue := s.queue.map fun e => if e.slot = n then f e else e }

/-- The count at which an entry is a barrier (R83, R84). -/
def barrierCount : Nat := 8
/-- The barrier mark (R84): set in the event in which the count reaches 8, and the count never falls. -/
def QEntry.barrier (e : QEntry) : Bool := decide (barrierCount ≤ e.passOver)

/-- Slot `n`'s first ungranted segment is eligible (R74). -/
def State.eligible (s : State) (n : SlotId) : Bool :=
  match (s.slot n).state with
  | .absent | .retired | .faulted => false
  | _ =>
    match s.firstUngranted n with
    | none => false
    | some (_, g) =>
      (s.posKnown n || g.body.isDatumBoth) &&
      match s.grantedSegs n with
      | [] => true
      | [(_, h)] => h.body.chains && g.body.chains
      | _ => false

/-- The claim of slot `n`'s entry is withdrawn: the mark clears, its PENDING cells return to FREE, the claim stays outstanding
with its withdrawn mark set (R31, R87, R124). -/
def State.withdrawClaim (s : State) (n : SlotId) : State :=
  match s.entry n with
  | some e =>
    if e.pendingClaim then
      let s := (s.freePending n).updEntry n fun e => { e with pendingClaim := false }
      match e.claimLink with
      | some k => s.updLink k fun l => { l with claim := l.claim.map fun c => { c with withdrawn := true } }
      | none => s
    else s
  | none => s

/-- The state of a slot with nothing granted, standing in the queue or not (R10, R75). -/
def State.settleState (s : State) (n : SlotId) : State :=
  s.updSlot n fun sl => { sl with state := if s.inQueue n then SlotState.waiting else sl.stand.rest }

/-- The entry of slot `n` leaves the queue (R75); a WAITING slot returns to its rest state (R10). -/
def State.leaveQueue (s : State) (n : SlotId) : State :=
  let s := s.withdrawClaim n
  State.updSlot { s with queue := s.queue.filter fun e => decide (e.slot ≠ n) } n fun sl =>
    if sl.state = .waiting then { sl with state := sl.stand.rest } else sl

/-- A resting slot that joins becomes WAITING (R10). -/
def SlotState.joined : SlotState → SlotState
  | .unknown | .parked | .stranded => .waiting
  | st => st

/-- Slot `n` joins the queue at its tail, which starts a scan (R75, R76). -/
def State.joinQueue (s : State) (n : SlotId) : State :=
  let e : QEntry := { slot := n, passOver := 0, pendingClaim := false, backoff := none, claimLink := none }
  (State.updSlot { s with queue := s.queue ++ [e] } n fun sl => { sl with state := sl.state.joined }).causeScan

/-- Slot `n` is judged for the grant queue (R74, R75). -/
def State.judge (s : State) (n : SlotId) : State :=
  if s.inQueue n then (if s.eligible n then s else s.leaveQueue n)
  else if s.eligible n then s.joinQueue n else s

/-- Every slot is judged, in increasing slot order (R75). -/
def State.judgeAll (s : State) : State := allSlots.foldl State.judge s

/-! ### Closing segments and batches (R49, R52, R60, R62) -/

/-- A batch counts a closed segment (R52). -/
def Batch.count (o : SegOutcome) (b : Batch) : Batch :=
  let b := { b with pending := b.pending - 1 }
  match o with
  | .done => { b with done := b.done + 1 }
  | .failed _ => { b with failed := b.failed + 1 }
  | .skipped _ => { b with skipped := b.skipped + 1 }

/-- The batch record that holds an id is changed; ids are unique (R51). -/
def State.updBatch (s : State) (id : Nat) (f : Batch → Batch) : State :=
  { s with batches := s.batches.map (Option.map fun b => if b.id = id then f b else b) }

/-- The batch record that holds an id. -/
def State.batchOf (s : State) (id : Nat) : Option Batch :=
  (s.batches.items.filterMap fun b => b).find? fun b => decide (b.id = id)

/-- The open batch (R51). -/
def State.openBatch (s : State) : Option Batch :=
  (s.batches.items.filterMap fun b => b).find? fun b => decide (b.state = .opened)

/-- The notice of a closed segment (R49). -/
def State.closeNotice (s : State) (g : Segment) : SegOutcome → State
  | .done => s.raise (.segDone g.slot g.tag g.batch)
  | .failed r => s.raise (.segFailed g.slot g.tag g.batch r)
  | .skipped _ => s

/-- A claim out for a segment that leaves the chain is withdrawn (R73). -/
def State.withdrawClaimFor (s : State) (n : SlotId) (id : SegId) : State :=
  match (s.entry n).bind (·.claimLink) with
  | some k => if (s.link k).claim.any fun c => decide (c.seg = id) then s.withdrawClaim n else s
  | none => s

/-- The entry is the step order of segment `id`. -/
def Entry.isOrderOf (id : SegId) : Entry → Bool
  | .order o => decide (o.seg = id)
  | _ => false

/-- The call is the step order of segment `id`. -/
def Transaction.isOrderOf (id : SegId) (t : Transaction) : Bool :=
  match t.call with
  | .entry e => e.isOrderOf id
  | .halt => false

/-- A branch keeps no order and no poll-list entry of a segment that has closed (R94, R97, R99). -/
def Branch.forget (br : Branch) (id : SegId) : Branch :=
  { br with
    queue := br.queue.filter fun e => !e.isOrderOf id
    backlog := br.backlog.filter fun o => decide (o.seg ≠ id)
    bus := br.bus.filter fun t => !t.isOrderOf id
    poll := br.poll.filter fun e => decide (e.seg ≠ id) }

/-- A segment closes (R49): it is counted, noticed, removed from its chain and FREE, and its branch keeps nothing of it. Its record
is put on the free list at the end of the event (`State.returnRecords`), since R48 orders the records of one event. -/
def State.closeSeg (s : State) (id : SegId) (o : SegOutcome) : State :=
  match s.seg id with
  | none => s
  | some g =>
    let s := match g.batch with
      | some b => s.updBatch b (Batch.count o)
      | none => s
    let s := ((s.closeNotice g o).withdrawClaimFor g.slot id).updBranch (branchOf g.slot) fun br => br.forget id
    State.updSlot { s with pool := s.pool.set id none } g.slot fun sl =>
      { sl with chain := sl.chain.filter fun i => decide (i ≠ id) }

/-- Segments of a slot's chain are SKIPPED, head first, where `p` gives a reason (R48). -/
def State.skipWhere (s : State) (n : SlotId) (p : Segment → Option SkipReason) : State :=
  (s.chainSegs n).foldl (fun s x => match p x.2 with
    | some r => s.closeSeg x.1 (.skipped r)
    | none => s) s

/-- An armed stream takes a BATCH_END (R145). -/
def State.fireArm (s : State) : State :=
  match s.armed, s.stream with
  | some a, none => { s with stream := some { first := a.first, count := a.count, sent := 0 }, armed := none }
  | _, _ => s

/-- A batch whose segments have all closed is to end (R60, R62). -/
def Batch.finished (b : Batch) : Bool :=
  decide (b.pending = 0) && (decide (b.state = .running) || decide (b.state = .aborting))

/-- A batch ends: DONE from RUNNING, ABORTED from ABORTING, with its end order and BATCH_END (R60, R62, R145). -/
def State.endBatch (s : State) (b : Batch) : State :=
  let aborted := decide (b.state = .aborting)
  let s := s.updBatch b.id fun r =>
    { r with state := if aborted then .aborted else .done, endOrder := some s.endCount }
  (State.raise { s with endCount := s.endCount + 1 }
    (.batchEnd b.id b.loaded b.done b.failed b.skipped aborted)).fireArm

/-- The batches an event brought to their end, in increasing batch id (R53, R60). -/
def State.endBatches (s : State) : State :=
  let ended := (s.batches.items.filterMap fun b => b).filter Batch.finished
  (sortBy (fun a b => decide (a.id ≤ b.id)) ended).foldl State.endBatch s

/-! ### Faults (R15) -/

/-- Slot `n` becomes FAULTED (R15): the code, out of the queue, SLOT_FAULT, and the fault drop of R64. A slot already FAULTED
keeps its first code. -/
def State.faultSlot (s : State) (n : SlotId) (code : FaultCode) : State :=
  if (s.slot n).state = .faulted then s
  else
    (((s.leaveQueue n).updSlot n fun sl => { sl with state := .faulted, fault := some code }).raise
      (.slotFault n code)).skipWhere n fun g => if g.body.isTrim then some .faultDrop else none

/-! ### The end of an event -/

/-- The cells that an event gave back to the neighbour on link `k`: HELD or ORPHAN before, AWAY after (R33, R36). -/
def releasedOn (old s : State) (k : LinkId) : List CellId :=
  s.border.filterMap fun e =>
    if e.link = k ∧ (s.cell e.cell).owner = .away k then
      match (old.cell e.cell).owner with
      | .held _ => some e.cell
      | .orphan _ => some e.cell
      | _ => none
    else none

/-- One RELEASE for each link on which the event released cells (R33, R118). -/
def State.flushReleases (s : State) (old : State) : State :=
  allLinks.foldl (fun t k => t.sendRelease k (releasedOn old s k)) s

/-- A cell's change in one event starts a scan (R42). -/
def scanCause (before after : Cell) : Bool :=
  (decide (after.owner = .free) && decide (before.owner ≠ .free)) ||
  (match after.owner, before.owner with
    | .away _, .held _ => true
    | .away _, .orphan _ => true
    | _, _ => false) ||
  decide (after.shadow < before.shadow)

/-- The scan an event at the Cell Map starts, in RUN only (R42, R76). -/
def State.noteScan (s : State) (old : State) : State :=
  { s with
    scanDue :=
      s.scanDue || (decide (s.sector = .run) && (List.zipWith scanCause old.cells.items s.cells.items).any id) }

/-- The records of the segments that closed in the event, slot by slot in increasing order and head first in each chain (R48). -/
def closedIn (old s : State) : List SegId :=
  allSlots.flatMap fun n =>
    (old.slot n).chain.filter fun id => (old.seg id).isSome && (s.seg id).isNone

/-- Each returning record is put at the top of the free list (R48). -/
def State.returnRecords (s : State) (old : State) : State :=
  { s with free := (closedIn old s).foldl (fun l id => id :: l) s.free }

/-- What an event leaves to its end: the RELEASE frames, the scan and the returned records. -/
def State.settleEvent (s : State) (old : State) : State :=
  ((s.flushReleases old).noteScan old).returnRecords old

end Sys2Proof.Machine
end

