-- ==== Sys2Proof/Machine/Flags.lean ====
section
/-! DEFINITION. The flags: the change flag of a sense record (R146 to R148), the PLAN port's load-error flag with the abandon it
brings (R56, R57), and a link's count of timeouts with the states it decides (R119, R127). -/

namespace Sys2Proof.Machine

/-! ### Senses -/

/-- One watched sense differs (R146). -/
def Senses.differ (watch a b : Senses) : Bool :=
  (watch.theta && a.theta != b.theta) || (watch.phi && a.phi != b.phi) || (watch.contact && a.contact != b.contact)

/-- The senses mismatch (R146): present senses and snapshot present, a watched sense differing. -/
def SenseRec.mismatch (r : SenseRec) : Bool :=
  match r.present, r.snapshot with
  | some (a, _), some b => Senses.differ r.watch a b
  | _, _ => false

/-- A STATUS reply's senses are taken for slot `n` and compared (R147, R148). -/
def State.takeSenses (s : State) (n : SlotId) (x : Senses) : State :=
  let r : SenseRec := { s.sense n with present := some (x, s.now) }
  if r.mismatch && !r.changed then
    (s.updSense n fun _ => { r with changed := true }).raise (.senseChange n x)
  else s.updSense n fun _ => r

/-! ### The load-error flag -/

/-- The open batch is abandoned (R57): its staged records go back in load order, its record is free. -/
def State.abandon (s : State) (b : Batch) : State :=
  { s with
    pool := b.staging.foldl (fun t id => t.set id none) s.pool
    free := b.staging.foldl (fun l id => id :: l) s.free
    batches := s.batches.map fun r => match r with
      | some x => if x.id = b.id then none else some x
      | none => none }

/-- A sequence violation (R56): the flag is set, an open batch is abandoned. -/
def State.sequenceViolation (s : State) : State :=
  let s := match s.openBatch with
    | some b => s.abandon b
    | none => s
  { s with loadError := true }

/-! ### Link state -/

/-- A link changes its state and raises LINK_STATE (R119). -/
def State.enterLink (s : State) (k : LinkId) (st : LinkState) : State :=
  (s.updLink k fun l => { l with state := st }).raise (.linkState k st)

end Sys2Proof.Machine
end

