-- ==== Sys2Proof/Machine/Operands.lean ====
section
/-! DEFINITION. Operand forms: numbers, cell lists and segment descriptors as a frame carries them, judged against the ranges of
the owning rules (R1, R2, R24, R44, R55, R134, R137, R138, R142, R194). -/

namespace Sys2Proof.Machine

/-- A number within a range, or none. -/
def inRange (n k : Nat) : Option (Fin n) := if h : k < n then some ⟨k, h⟩ else none

/-- Every number of a list within a range, or none. -/
def allInRange (n : Nat) : List Nat → Option (List (Fin n))
  | [] => some []
  | k :: l =>
    match inRange n k, allInRange n l with
    | some a, some r => some (a :: r)
    | _, _ => none

/-- A list of `lo` to `hi` distinct cells, or none. -/
def cellList (lo hi : Nat) (l : List Nat) : Option (List CellId) :=
  match allInRange 2048 l with
  | some c => if lo ≤ c.length ∧ c.length ≤ hi ∧ c.Nodup then some c else none
  | none => none

/-- The sweep and end lists of a MOVE, TRIM or DATUM (R44): 1 to 16 and 1 to 8 distinct cells, each end cell in the sweep. -/
def sweepEnds (sweep ends : List Nat) : Option (List CellId × List CellId) :=
  match cellList 1 16 sweep, cellList 1 8 ends with
  | some w, some e => if e.all (· ∈ w) then some (w, e) else none
  | _, _ => none

/-- A signed number from -lim to lim (R44). -/
def withinBy (x : Int) (lim : Int) : Bool := decide (-lim ≤ x) && decide (x ≤ lim)

/-- The datum axis by its number (section 12.6). -/
def axisOf : Nat → Option Axis
  | 1 => some .theta
  | 2 => some .phi
  | 3 => some .both
  | _ => none

/-- The body of a descriptor, read by its kind; only the fields of that kind are checked and kept (R44, R194). -/
def Descriptor.segBody (d : Descriptor) : Option SegBody :=
  match d.kind with
  | 1 =>
    match inRange 4 d.rate, sweepEnds d.sweep d.ends with
    | some r, some (w, e) =>
      if withinBy d.dTheta 24000 && withinBy d.dPhi 12000 then some (.move d.dTheta d.dPhi r w e) else none
    | _, _ => none
  | 2 =>
    match inRange 4 d.rate, sweepEnds d.sweep d.ends with
    | some r, some (w, e) =>
      if withinBy d.dTheta 255 && withinBy d.dPhi 255 then some (.trim d.dTheta d.dPhi r w e) else none
    | _, _ => none
  | 3 =>
    match axisOf d.axis, inRange 4 d.rate, sweepEnds d.sweep d.ends with
    | some a, some r, some (w, e) => some (.datum a r w e)
    | _, _, _ => none
  | 4 => if 1 ≤ d.duration ∧ d.duration ≤ 60000 then some (.dwell d.duration) else none
  | _ => none

/-- The slot and body a descriptor gives, when every field is in range (R55, R138). -/
def Descriptor.read (d : Descriptor) : Option (SlotId × SegBody) :=
  match inRange 96 d.slot, Descriptor.segBody d with
  | some n, some b => some (n, b)
  | _, _ => none

/-- First slot and count of a stream (R142, R145). -/
def streamRange (first count : Nat) : Option Range :=
  if first ≤ 95 ∧ 1 ≤ count ∧ count ≤ 96 ∧ first + count ≤ 96 then some { first := first, count := count } else none

/-- The home of a border entry by its number (section 12.6). -/
def homeOf : Nat → Option Home
  | 0 => some .here
  | 1 => some .remote
  | _ => none

/-- A border-table entry in range (R182). -/
def readBorder (r : RawBorder) : Option BorderEntry :=
  match inRange 2048 r.cell, inRange 4 r.link, inRange 2048 r.theirs, homeOf r.home with
  | some c, some k, some t, some h => some { cell := c, link := k, theirs := t, home := h }
  | _, _, _, _ => none

/-- A retired-set entry in range (R182). -/
def readRetired (r : RawRetired) : Option RetiredEntry :=
  match inRange 24001 r.theta, inRange 12001 r.phi, cellList 1 8 r.cells with
  | some t, some f, some c => some { theta := t, phi := f, cells := c }
  | _, _, _ => none

/-- The three senses a watch-set byte names; a set bit among bits 3 to 7 names no sense (R151, section 12.2). -/
def readWatch (w : Byte) : Option Senses :=
  if w.toNat < 8 then some { theta := w.getLsbD 0, phi := w.getLsbD 1, contact := w.getLsbD 2 } else none

end Sys2Proof.Machine
end

