-- ==== Sys2Proof/Machine/Bus.lean ====
section
/-! DEFINITION. The Branch Controllers' shared operations: the transaction queue and its arbiter (R92, R93), sending a call
(R95, R97, R98, R106), step orders handed over and removed (R94), and the ends of start-up and census that a bus brings
about (R68, R109, R110, R188). -/

namespace Sys2Proof.Machine

/-! ### Answers (R170, R173) -/

/-- The answer of the request in hand is made on port `p` (R169, R173). -/
def State.answer (s : State) (p : PortId) (r : Result) (f : AnswerFields) : State :=
  s.updPort p fun q =>
    match q.inHand with
    | some h => { q with answers := q.answers ++ [{ own := true, code := h.code, seq := h.seq, result := r, fields := f }] }
    | none => q

/-- A deferred answer is made on the SERVICE port (R171). -/
def State.answerService (s : State) (r : Result) (f : AnswerFields) : State :=
  match allPorts.find? fun p => decide ((s.port p).role = some .service) with
  | some p => s.answer p r f
  | none => s

/-! ### The transaction queue (R92, R93) -/

/-- The places of a transaction queue (R90). -/
def places : Nat := 8

/-- The entry is a status call or a roll call of drop `d`. -/
def Entry.calls (d : DropId) : Entry → Bool
  | .status e _ => decide (e = d)
  | .roll e => decide (e = d)
  | _ => false

/-- The entry is a step order of drop `d`. -/
def Entry.orders (d : DropId) : Entry → Bool
  | .order o => decide (o.drop = d)
  | _ => false

/-- A status call or roll call of drop `d` is queued. -/
def Branch.called (b : Branch) (d : DropId) : Bool := b.queue.any (Entry.calls d)

/-- Drop `d` stands in the poll list. -/
def Branch.polled (b : Branch) (d : DropId) : Bool := b.poll.any fun e => decide (e.drop = d)

/-- A step order of drop `d` waits in the queue or the backlog. -/
def Branch.waitingOrder (b : Branch) (d : DropId) : Bool :=
  b.queue.any (Entry.orders d) || b.backlog.any fun o => decide (o.drop = d)

/-- The step order on the bus, if that is the transaction in progress. -/
def Branch.busOrder (b : Branch) : Option Order :=
  match b.bus with
  | some { call := .entry (.order o), left := _ } => some o
  | _ => none

/-- The segment of a step order is ACTIVE (R97). -/
def State.orderActive (s : State) (o : Order) : Bool :=
  match s.seg o.seg with
  | some g => decide (g.state = .active)
  | none => false

/-- A backlog order that may be drawn (R93, row 2). -/
def State.mayDraw (s : State) (b : BranchId) (o : Order) : Bool :=
  decide ((s.branch b).access = .own) || o.continuation || s.orderActive o

/-- The status call that a poll-list drop asks for (R93, row 1): its final call, or a regular call when due. -/
def PollEntry.wants (e : PollEntry) : Option Purpose :=
  if e.finalWanted then some .final else if e.due && !e.finalMark then some .poll else none

/-- A drop the idle sweep may call (R107). -/
def State.sweepable (s : State) (b : BranchId) (d : DropId) : Bool :=
  let br := s.branch b
  let sl := s.slot (slotOf b d)
  sl.populated &&
  (match sl.state with
    | .unknown | .parked | .waiting | .stranded | .faulted => true
    | _ => false) &&
  !br.polled d && !br.waitingOrder d && decide (br.access = .own)

/-- A drop is due for an idle call (R107): with no idle-call time, or 500 ms after it. -/
def Drop.dueIdle (x : Drop) : Bool := x.idleTime.isNone || x.idleDue

/-- A drop whose roll call may be queued (R110; the bus too, log 12). -/
def Branch.mayRoll (b : Branch) (d : DropId) : Bool :=
  !b.called d && !b.polled d && !b.waitingOrder d && !(b.busOrder.any fun o => decide (o.drop = d)) &&
  decide (b.access ≠ .taken)

/-- One free place is filled from the candidates, in the order of R93. A roll call that may not be queued yet (R110) is no candidate,
so it does not hold up the idle sweep (log 44). -/
def State.fillPlace (s : State) (b : BranchId) : State :=
  let br := s.branch b
  if places ≤ br.queue.length then s
  else
    match br.poll.find? fun e => e.wants.isSome && !br.called e.drop with
    | some e =>
      s.updBranch b fun br =>
        { br with
          queue := br.queue ++ [.status e.drop (e.wants.getD .poll)],
          poll := br.poll.map fun x => if x.drop = e.drop then { x with finalWanted := false } else x }
    | none =>
    match takeFirst (s.mayDraw b) br.backlog with
    | some (o, rest) => s.updBranch b fun br => { br with queue := br.queue ++ [.order o], backlog := rest }
    | none =>
    match br.direct with
    | some (d, bytes) => s.updBranch b fun br => { br with queue := br.queue ++ [.direct d bytes], direct := none }
    | none =>
    match takeFirst br.mayRoll br.rollsLeft with
    | some (d, rest) => s.updBranch b fun br => { br with queue := br.queue ++ [.roll d], rollsLeft := rest }
    | none =>
    match br.queue, allDrops.find? fun d => s.sweepable b d && (br.drops.get d).dueIdle with
    | [], some d => s.updBranch b fun br => { br with queue := br.queue ++ [.status d .idle] }
    | _, _ => s

/-- The free places are filled until none is free or no candidate remains (R93). -/
def State.fillPlaces (s : State) (b : BranchId) : State :=
  (List.range places).foldl (fun s _ => s.fillPlace b) s

/-- An entry is ready (R92). A continuation that drew NAK-busy waits its 20 ms as R97 has it (log 43). -/
def State.ready (s : State) (b : BranchId) : Entry → Bool
  | .order o =>
    o.wait.isNone &&
    (o.continuation ||
      (!((s.branch b).drops.get o.drop).settling && (decide ((s.branch b).access = .own) || s.orderActive o)))
  | _ => true

/-! ### Sending a call -/

/-- The keep-energized conditions (R95): the look-ahead is GRANTED, both are a MOVE or a TRIM, their rate classes are equal. -/
def State.keepsEnergized (s : State) (n : SlotId) (id : SegId) : Option SegId :=
  match s.grantedSegs n with
  | [(i, g), (j, h)] =>
    if i = id ∧ h.state = .granted ∧ g.body.stepRate.isSome ∧ g.body.stepRate = h.body.stepRate then some j else none
  | _ => none

/-- A step order is sent (R95, R97): at its first attempt the segment becomes ACTIVE, the keep-energized mark is fixed, and the
look-ahead receives the continuation mark when it is set. The segment's own continuation mark clears as it becomes ACTIVE (R47); its order
keeps the mark it was made with (log 58). -/
def State.sendOrder (s : State) (b : BranchId) (o : Order) : State :=
  match o.keep with
  | some _ => s.updBranch b fun br => { br with bus := some { call := .entry (.order o), left := o.left } }
  | none =>
    let next := s.keepsEnergized (slotOf b o.drop) o.seg
    let s := s.updSeg o.seg fun g => { g with state := .active, continuation := false }
    let s := match next with
      | some j => s.updSeg j fun g => { g with continuation := true }
      | none => s
    s.updBranch b fun br =>
      { br with bus := some { call := .entry (.order { o with keep := some next.isSome }), left := o.left } }

/-- The retry counter at the first attempt of a status call or a roll call (R91). -/
def firstCounter : Nat := 2

/-- The entry's transaction begins (R91, R92). -/
def State.sendEntry (s : State) (b : BranchId) : Entry → State
  | .order o => s.sendOrder b o
  | .status d .idle =>
    let t := s.now
    s.updBranch b fun br =>
      { br with
        bus := some { call := .entry (.status d .idle), left := firstCounter },
        drops := br.drops.upd d fun x => { x with idleTime := some t, idleDue := false } }
  | .status d w =>
    let t := s.now
    s.updBranch b fun br =>
      { br with
        bus := some { call := .entry (.status d w), left := firstCounter },
        poll := br.poll.map fun x => if x.drop = d then { x with lastCall := t, due := false } else x }
  | .roll d => s.updBranch b fun br => { br with bus := some { call := .entry (.roll d), left := firstCounter } }
  | .direct d bytes => s.updBranch b fun br => { br with bus := some { call := .entry (.direct d bytes), left := 0 } }

/-- A branch reports its halt finished to the Grant Unit, which enters STOPPED at the last (R72, R159). -/
def State.haltReported (s : State) (b : BranchId) : State :=
  if s.sector = .stopping then
    let left := s.haltOut.filter fun x => decide (x ≠ b)
    let s := { s with haltOut := left }
    if left.isEmpty then s.enterSector .stopped else s
  else s

/-- The halt of a branch finishes with the halt sent and its poll list empty (R106). -/
def State.finishHalt (s : State) (b : BranchId) : State :=
  let br := s.branch b
  if br.halting && !br.haltPlace && br.poll.isEmpty then
    (s.updBranch b fun br => { br with halting := false }).haltReported b
  else s

/-- The halt is sent (R106): halt marks set, energized flags cleared; its transaction has one attempt and no reply. -/
def State.sendHalt (s : State) (b : BranchId) : State :=
  let t := s.now
  (s.updBranch b fun br =>
    { br with
      haltPlace := false,
      bus := some { call := .halt, left := 0 },
      callAt := t,
      poll := br.poll.map fun e => { e with haltMark := true },
      drops := br.drops.map fun x => { x with energized := false } }).finishHalt b

/-- The free bus starts the halt, or the first ready entry (R92). -/
def State.startBus (s : State) (b : BranchId) : State :=
  let br := s.branch b
  if br.bus.isSome then s
  else if br.haltPlace then s.sendHalt b
  else
    match takeFirst (s.ready b) br.queue with
    | some (e, rest) => (s.updBranch b fun br => { br with queue := rest, callAt := s.now }).sendEntry b e
    | none => s

/-- A TAKING branch may become TAKEN (R111): its poll list is empty and no continuation and no order whose segment is ACTIVE
waits or stands on the bus (log 11). -/
def State.mayTake (s : State) (b : BranchId) : Bool :=
  let br := s.branch b
  br.poll.isEmpty && br.busOrder.isNone &&
  !(br.queue.any fun e => match e with
      | .order o => o.continuation || s.orderActive o
      | _ => false) &&
  !(br.backlog.any fun o => o.continuation || s.orderActive o)

/-- A TAKING branch becomes TAKEN and the deferred answer OK is made (R111). With its poll list already empty at a STOP that is in the
STOP's own event, before the halt is sent; R164 names the halt's finish (log 55). -/
def State.takeOver (s : State) (b : BranchId) : State :=
  if decide ((s.branch b).access = .taking) && s.mayTake b then
    (s.updBranch b fun br => { br with access := .taken }).answerService .ok .none
  else s

/-- The arbiter of one branch (R92, R93). -/
def State.arbitrate (s : State) (b : BranchId) : State :=
  (((s.fillPlaces b).startBus b).fillPlaces b).takeOver b

def State.arbitrateAll (s : State) : State := allBranches.foldl State.arbitrate s

/-! ### Step orders handed over and removed (R93, R94) -/

/-- The step period of a rate class, in microseconds (R190): the timebase times 1, 2, 4 or 8. -/
def State.stepPeriod (s : State) (r : Fin 4) : Nat := s.timebase.getD 0 * 2 ^ r.val

/-- The rate class of a segment; a DWELL has none. -/
def SegBody.rate : SegBody → Fin 4
  | .move _ _ r _ _ => r | .trim _ _ r _ _ => r | .datum _ r _ _ => r | .dwell _ => 0

/-- A step order for segment `id` is handed to the slot's branch (R93, R94). -/
def State.handOver (s : State) (n : SlotId) (id : SegId) (g : Segment) : State :=
  let o : Order :=
    { seg := id, drop := dropOf n, period := s.stepPeriod g.body.rate, continuation := g.continuation, keep := none,
      left := firstCounter, naked := false, wait := none }
  s.updBranch (branchOf n) fun br =>
    if br.queue.length < places ∧ br.backlog = [] ∧ (br.access = .own ∨ o.continuation) then
      { br with queue := br.queue ++ [.order o] }
    else { br with backlog := br.backlog ++ [o] }

/-- The step order of a withdrawn segment is removed from where it waits (R94). -/
def State.removeOrder (s : State) (n : SlotId) (id : SegId) : State :=
  s.updBranch (branchOf n) fun br =>
    { br with
      queue := br.queue.filter fun e => !e.isOrderOf id
      backlog := br.backlog.filter fun o => decide (o.seg ≠ id) }

/-! ### The phases a bus brings to an end (R109, R110, R188) -/

/-- Each branch begins a census (R109, R110). -/
def State.beginCensus (s : State) (c : Census) : State :=
  { s with
    census := c
    branches := s.branches.map fun br => { br with rollsLeft := allDrops, rollsDone := 0 } }

/-- The SYNC phase: SYNC on every link, each sync timer started (R120). -/
def State.sendSync (s : State) (k : LinkId) : State :=
  (s.send k .sync).updLink k fun l => { l with syncTimer := some (s.now + syncTime) }

/-- Start-up ends in the Grant Unit (R68, R188); a STOP line released since the reset event leaves no trace (log 46). -/
def State.endStartUp (s : State) : State :=
  let s := { s with phase := .done }
  if s.sector = .starting then s.enterSector (if s.startStop || s.stopLine then .stopped else .hold) else s

/-- Every branch has reported its 24th result (R109). -/
def State.rollsOver (s : State) : Bool := s.branches.items.all fun br => decide (24 ≤ br.rollsDone)

/-- The end of the HALT phase, of the CENSUS phase with SYNC and start-up's end, and of a SERVICE CENSUS, when the branches have
brought it about (R110, R188). -/
def State.advance (s : State) : State :=
  if s.phase = .halt ∧ (s.branches.items.all fun br => !br.halting) = true then
    ({ s with phase := .census }.beginCensus .startup).arbitrateAll
  else if s.census = .startup ∧ s.rollsOver = true then
    (allLinks.foldl State.sendSync { s with census := .none, phase := .sync }).endStartUp
  else if s.census = .service ∧ s.rollsOver = true then
    { s with census := .none }.answerService .ok .none
  else s

/-- The end of an event on the buses: every branch's arbiter, and what the branches have brought to an end. -/
def State.runBuses (s : State) : State := s.arbitrateAll.advance

end Sys2Proof.Machine
end

