-- ==== Sys2Proof/Machine/Grants.lean ====
section
/-! DEFINITION. The Grant Unit: dispatch (R85), the grant (R80), border claims from the queue (R81, R123), scans (R76 to R84),
withdrawals (R12, R34) and the entry into HOLD (R87). -/

namespace Sys2Proof.Machine

/-! ### Dispatch and grant -/

/-- A segment is dispatched (R85): a step order to the branch, or the DWELL is ACTIVE at once with its timer started. The slot is
in the segment's working state (R11). -/
def State.dispatch (s : State) (n : SlotId) (id : SegId) : State :=
  match s.seg id with
  | none => s
  | some g =>
    let s := s.updSlot n fun sl => { sl with state := g.body.workState }
    match g.body with
    | .dwell d =>
      State.updSeg { s with dwell := s.dwell.set n (some (s.now + ms d)) } id fun g =>
        { g with state := .active, continuation := false }
    | _ => s.handOver n id g

/-- A grant up to its dispatch (R80, steps 1 to 5; R30): every sweep cell HELD, the segment GRANTED, the entry out of the queue, the
slot in its working state, the segment dispatched when it is the slot's only granted one. -/
def State.award (s : State) (n : SlotId) (id : SegId) (g : Segment) : State :=
  let first := (s.grantedSegs n).isEmpty
  let s := s.takeCells n (s.sweepOf n g)
  let s := s.updSeg id fun g => { g with state := .granted, continuation := false }
  let s := { s with queue := s.queue.filter fun e => decide (e.slot ≠ n) }
  if first then s.dispatch n id else s

/-- A grant (R80), with the slot's next segment judged (step 6). -/
def State.grantSeg (s : State) (n : SlotId) (id : SegId) (g : Segment) : State := (s.award n id g).judge n

/-! ### The grant condition (R78, R79) -/

/-- The position a segment leaves, from the position before it (R79); exact step counts. -/
def SegBody.endFrom : SegBody → Int × Int → Int × Int
  | .move a b _ _ _, p => (p.1 + a, p.2 + b)
  | .trim a b _ _ _, p => (p.1 + a, p.2 + b)
  | .datum .theta _ _ _, p => (0, p.2)
  | .datum .phi _ _ _, p => (p.1, 0)
  | .datum .both _ _ _, _ => (0, 0)
  | .dwell _, p => p

/-- The expected start of the slot's next grant: its position, moved by the segments granted ahead (R79). -/
def State.expectedStart (s : State) (n : SlotId) : Int × Int :=
  let p := ((s.slot n).stand.pos.map fun x => ((x.1.val : Int), (x.2.val : Int))).getD (0, 0)
  (s.grantedSegs n).foldl (fun p x => x.2.body.endFrom p) p

/-- The expected end is within range (R79). -/
def State.endInRange (s : State) (n : SlotId) (g : Segment) : Bool :=
  match g.body with
  | .datum .. => true
  | .dwell _ => true
  | b =>
    let e := b.endFrom (s.expectedStart n)
    decide ((0 ≤ e.1 ∧ e.1 ≤ 24000) ∧ (0 ≤ e.2 ∧ e.2 ≤ 12000))

/-- The link of a cell that is AWAY. -/
def State.awayLink (s : State) (c : CellId) : Option LinkId :=
  match (s.cell c).owner with
  | .away k => some k
  | _ => none

/-- The AWAY cells of a sweep, in its order. -/
def State.awayCells (s : State) (sweep : List CellId) : List CellId := sweep.filter fun c => (s.awayLink c).isSome

/-- The AWAY cells lie on two or more links (R77, test 4). -/
def State.twoAwayLinks (s : State) (sweep : List CellId) : Bool :=
  match sweep.filterMap s.awayLink with
  | [] => false
  | k :: l => l.any fun j => decide (j ≠ k)

/-- A sweep cell can be held by slot `n`, now or by a claim, with no shadow from others (R78; log 8). -/
def State.cellPasses (s : State) (n : SlotId) (c : CellId) : Bool :=
  (match (s.cell c).owner with
    | .free => true
    | .held m => decide (m = n)
    | .away _ => true
    | _ => false) && decide (s.shadowFromOthers n c = 0)

/-- The barrier's cells of an entry (R84). -/
def State.barrierCells (s : State) (e : QEntry) : List CellId :=
  match s.firstUngranted e.slot with
  | some (_, g) => s.sweepOf e.slot g
  | none => []

/-- The cells of the barriers that stand ahead of slot `n`'s entry (R78, R84). -/
def State.barredCells (s : State) (n : SlotId) : List CellId :=
  ((s.queue.takeWhile fun e => decide (e.slot ≠ n)).filter QEntry.barrier).flatMap s.barrierCells

/-- The grant condition of slot `n`'s entry for a sweep, range and single link apart (R78). -/
def State.grantable (s : State) (n : SlotId) (sweep : List CellId) : Bool :=
  decide (s.sector = .run) && s.eligible n && sweep.all (s.cellPasses n) &&
  sweep.all fun c => decide (c ∉ s.barredCells n)

/-! ### Claims (R81, R123) -/

/-- A claim is made for slot `n`'s entry on link `k` (R31, R81, R123). -/
def State.makeClaim (s : State) (n : SlotId) (id : SegId) (k : LinkId) (sweep : List CellId) : State :=
  let away := s.awayCells sweep
  let theirs := away.map s.theirsOf
  let s := s.updCells fun i r => if named i sweep ∧ r.owner = .free then { r with owner := .pending n } else r
  let s := s.updEntry n fun e => { e with pendingClaim := true, claimLink := some k }
  let number := (s.link k).nextClaim
  let t := s.now + claimTime
  (s.updLink k fun l =>
    { l with
      nextClaim := l.nextClaim + 1
      claim := some { number := number, slot := n, seg := id, cells := away, theirs := theirs, withdrawn := false, deadline := t }
      history := l.history.set number.toFin theirs }).send k (.claim number theirs)

/-! ### Scans (R76, R77, R83) -/

/-- What a scan decides of an entry: granted; counted by R83; or passed without a count, a claim made or pending. -/
inductive Verdict where
  | granted | counted | passed
deriving DecidableEq, Repr

/-- One entry is judged by the tests of R77, in their order. -/
def State.judgeEntry (s : State) (n : SlotId) : State × Verdict :=
  match s.entry n, s.firstUngranted n with
  | some e, some (id, g) =>
    let sweep := s.sweepOf n g
    let away := s.awayCells sweep
    if (s.branch (branchOf n)).access ≠ .own then (s, .passed)
    else if e.pendingClaim then (s, .passed)
    else if e.backoff.isSome then (s, .passed)
    else if s.endInRange n g = false ∨ s.twoAwayLinks sweep = true then (s, .passed)
    else if s.grantable n sweep then
      match away.head?.bind s.awayLink with
      | none => (s.award n id g, .granted)
      | some k => if (s.link k).claim.isSome then (s, .passed) else (s.makeClaim n id k sweep, .passed)
    else (s, .counted)
  | _, _ => (s, .passed)

/-- The queue is judged in its order at the start of the scan (R76). -/
def State.scanEntries (s : State) : List SlotId → State × List (SlotId × Verdict)
  | [] => (s, [])
  | n :: l =>
    let r := s.judgeEntry n
    let rest := r.1.scanEntries l
    (rest.1, (n, r.2) :: rest.2)

/-- The entries that gain a count: judged at test 8, with an entry behind them granted in the scan (R83). -/
def passedOver : List (SlotId × Verdict) → List SlotId
  | [] => []
  | (n, v) :: l =>
    if v = .counted ∧ (l.any fun x => decide (x.2 = .granted)) = true then n :: passedOver l else passedOver l

/-- A pass-over count rises by 1, to 8 at most (R83). -/
def State.countPassOver (s : State) (n : SlotId) : State :=
  s.updEntry n fun e => { e with passOver := min barrierCount (e.passOver + 1) }

/-- The slots that a scan granted. -/
def awarded (l : List (SlotId × Verdict)) : List SlotId := (l.filter fun x => decide (x.2 = .granted)).map (·.1)

/-- A scan (R76): the queue from head to tail once, then the pass-over counts, and the granted slots judged for their look-aheads
in increasing slot order, since they join in one event (R75). -/
def State.makeScan (s : State) : State :=
  let r := State.scanEntries { s with scanDue := false } (s.queue.map QEntry.slot)
  (sortBy (fun a b => decide (a ≤ b)) (awarded r.2)).foldl State.judge ((passedOver r.2).foldl State.countPassOver r.1)

/-! ### Withdrawals (R12, R34, R62, R87) -/

/-- The batch of a segment is ABORTING (R62). -/
def State.abortingBatch (s : State) (g : Segment) : Bool :=
  match g.batch.bind s.batchOf with
  | some b => decide (b.state = .aborting)
  | none => false

/-- A GRANTED segment that is not active is withdrawn: its order is removed; it goes back to CHAINED without its mark, or is
SKIPPED(ABORTED) when its batch is ABORTING (R46, R47, R62). -/
def State.withdrawSeg (s : State) (n : SlotId) (id : SegId) (g : Segment) : State :=
  let s := s.removeOrder n id
  if s.abortingBatch g then s.closeSeg id (.skipped .aborted)
  else s.updSeg id fun g => { g with state := .chained, continuation := false }

/-- The GRANTED segments of slot `n` that `p` picks are withdrawn, its cells follow, and a slot with none left granted goes to its
rest state or, standing in the queue, to WAITING (R12, R34). -/
def State.withdrawWhere (s : State) (n : SlotId) (p : Segment → Bool) : State :=
  let picked := (s.grantedSegs n).filter fun x => decide (x.2.state = .granted) && p x.2
  if picked.isEmpty then s
  else
    let s := (picked.foldl (fun s x => s.withdrawSeg n x.1 x.2) s).rehold n
    if (s.grantedSegs n).isEmpty then s.settleState n else s

/-- Every pending claim of the queue is withdrawn (R87, R156). -/
def State.withdrawClaims (s : State) : State :=
  s.queue.foldl (fun s e => s.withdrawClaim e.slot) s

/-- The withdrawals of R87 (HOLD, by request or by a contact fault). -/
def State.holdWithdrawals (s : State) : State :=
  (allSlots.foldl (fun s n => s.withdrawWhere n fun g => !g.continuation) s).withdrawClaims.judgeAll

end Sys2Proof.Machine
end

