-- ==== Sys2Proof/Machine/Complete.lean ====
section
/-! DEFINITION. The end of a segment: what a DONE and a failure do to the slot, its cells and its chain (R11 to R17, R33 to R36,
R63, R64, R71), the completion of a step order (R104), the end of a DWELL (R86) and the silence of a resting slot (R108). -/

namespace Sys2Proof.Machine

/-! ### The segment of a slot that closes -/

/-- Where the robot stands after a DONE (R2, R3, R11); none when the position falls out of range (log 17). -/
def SegBody.doneStand (st : Stand) : SegBody → Option Stand
  | .move a b _ _ e => (st.pos.bind fun p => movePos p.1 p.2 a b).map fun q => .footprint q.1 q.2 e
  | .trim a b _ _ e => (st.pos.bind fun p => movePos p.1 p.2 a b).map fun q => .footprint q.1 q.2 e
  | .datum .both _ _ e => some (.footprint 0 0 e)
  | .datum a _ _ e => st.pos.map fun p => .footprint (datumPos a p.1 p.2).1 (datumPos a p.1 p.2).2 e
  | .dwell _ => some st

/-- Where the robot stands after a failure (R13, R14, R103). -/
def Stand.afterFailure (st : Stand) (r : FailReason) (dTheta dPhi : Int) (sweep : List CellId) : Stand :=
  match r with
  | .noReply => .lost
  | .stalled => .lost
  | .datumMissing => .lost
  | _ =>
    match st.pos.bind fun p => movePos p.1 p.2 dTheta dPhi with
    | some q => .sweep q.1 q.2 sweep
    | none => .lost

/-- The fault code of a failure (R13): COUNT_RANGE when a known position would leave its range; none for INTERRUPTED. -/
def Stand.faultOf (st : Stand) (r : FailReason) (dTheta dPhi : Int) : Option FaultCode :=
  let out := st.known && (st.pos.bind fun p => movePos p.1 p.2 dTheta dPhi).isNone
  match r with
  | .noReply => some .noReply
  | .stalled => some .stalled
  | .datumMissing => some .datumMissing
  | .short => if out then some .countRange else some .short
  | .collided => if out then some .countRange else some .contact
  | .interrupted => if out then some .countRange else none

/-- The robot of slot `n` comes to stand elsewhere: a position lost casts the slot's shadow, a position found lifts it (R29, R35). -/
def State.moveStand (s : State) (n : SlotId) (st : Stand) : State :=
  let s :=
    if s.posKnown n && !st.known then s.castShadow n
    else if !s.posKnown n && st.known then s.liftShadow n
    else s
  s.updSlot n fun sl => { sl with stand := st }

/-- The held set follows (R33 to R35), and orphans without shadow go back (R36). -/
def State.settleCells (s : State) (n : SlotId) : State := (s.rehold n).dropOrphans

/-- What follows a segment that closed DONE (R11, R85): the look-ahead is dispatched, or the slot is at rest or WAITING. -/
def State.nextSeg (s : State) (n : SlotId) : State :=
  match s.grantedSegs n with
  | x :: _ => s.dispatch n x.1
  | [] => s.settleState n

/-- Every granted segment of slot `n` is withdrawn (R16, R108). -/
def State.withdrawGranted (s : State) (n : SlotId) : State :=
  (s.grantedSegs n).foldl (fun s x => s.withdrawSeg n x.1 x.2) s

/-- A segment of slot `n` closes DONE (R11, R33). -/
def State.doneSeg (s : State) (n : SlotId) (id : SegId) (g : Segment) : State :=
  match g.body.doneStand (s.slot n).stand with
  | some st => (((s.moveStand n st).closeSeg id .done).settleCells n).nextSeg n
  | none =>
    ((((s.moveStand n .lost).closeSeg id .done).withdrawGranted n).faultSlot n .countRange).settleCells n

/-- The skip rule (R63): the other segments of the failed segment's batch in the chain are SKIPPED(BATCH_FAILED). -/
def State.skipRule (s : State) (n : SlotId) (batch : Option Nat) : State :=
  match batch with
  | some b => s.skipWhere n fun h => if h.batch = some b then some .batchFailed else none
  | none => s

/-- A segment of slot `n` closes FAILED (R13 to R16, R34, R35, R64): the failed segment, the skip rule, the look-ahead withdrawn,
the fault with its drop, the cells, and for a slot that is not faulted its resting state. A halted patrol-sweep DATUM closes like
any other, and what next heads the chain is judged (log 47). -/
def State.failSeg (s : State) (n : SlotId) (id : SegId) (g : Segment) (r : FailReason) (dTheta dPhi : Int) : State :=
  let st := (s.slot n).stand
  let t := (((s.moveStand n (st.afterFailure r dTheta dPhi g.body.sweep)).closeSeg id (.failed r)).skipRule n g.batch).withdrawGranted n
  match st.faultOf r dTheta dPhi with
  | some c => (t.faultSlot n c).settleCells n
  | none => (t.settleCells n).settleState n

/-! ### Completion of a step order (R104) -/

/-- The entry is a regular or final status call of drop `d` (log 34). -/
def Entry.watches (d : DropId) : Entry → Bool
  | .status _ .idle => false
  | .status e _ => decide (e = d)
  | _ => false

/-- Steps 1 and 2 of R104: the drop leaves the poll list; its last-done time becomes now when the final status is DONE, whatever the
outcome (R90); its energized flag is set for an outcome DONE of an order that carried keep-energized, and cleared for any other, behind a halt too (log 60). -/
def State.endFlight (s : State) (b : BranchId) (d : DropId) (statusDone energized : Bool) : State :=
  let t := s.now
  s.updBranch b fun br =>
    { br with
      poll := br.poll.filter fun e => decide (e.drop ≠ d)
      queue := br.queue.filter fun e => !e.watches d
      drops := br.drops.upd d fun x =>
        if statusDone then { x with lastDone := some t, settling := true, energized := energized }
        else { x with energized := energized } }

/-- Steps 1 to 4 of R104, the batches and the judgement of the queue apart. `statusDone` says that the final status is DONE. -/
def State.applyOutcome (s : State) (b : BranchId) (d : DropId) (id : SegId) (statusDone keep : Bool) (o : SegOutcome)
    (dTheta dPhi : Int) : State :=
  let s := s.endFlight b d statusDone (decide (o = .done) && keep)
  match s.seg id, o with
  | some g, .done => s.doneSeg (slotOf b d) id g
  | some g, .failed r => s.failSeg (slotOf b d) id g r dTheta dPhi
  | _, _ => s

/-- What a completion leaves to its end: the slot judged, the sector's HOLD after a contact fault in RUN (R71, R161; log 16), the
batches ended, the halt finished (R106). -/
def State.endOutcome (s : State) (b : BranchId) (n : SlotId) (o : SegOutcome) : State :=
  let s := s.judge n
  if o = .failed .collided ∧ s.sector = .run then
    ((State.holdWithdrawals { s with sector := .hold }).endBatches.raise (.sectorState .hold)).finishHalt b
  else s.endBatches.finishHalt b

/-- The completion of a step order (R104). -/
def State.complete (s : State) (b : BranchId) (d : DropId) (id : SegId) (statusDone keep : Bool) (o : SegOutcome)
    (dTheta dPhi : Int) : State :=
  (s.applyOutcome b d id statusDone keep o dTheta dPhi).endOutcome b (slotOf b d) o

/-! ### Dwells and silences -/

/-- The ACTIVE DWELL of slot `n`. -/
def State.activeDwell (s : State) (n : SlotId) : Option (SegId × Segment) :=
  (s.grantedSegs n).find? fun x => decide (x.2.state = .active) && match x.2.body with
    | .dwell _ => true
    | _ => false

/-- The dwell of slot `n` ends and closes DONE (R86, R157). -/
def State.endDwell (s : State) (n : SlotId) : State :=
  match s.activeDwell n with
  | some (id, g) => State.doneSeg { s with dwell := s.dwell.set n none } n id g
  | none => s

/-- As `endDwell`, with no dispatch behind it (R108). -/
def State.cutDwell (s : State) (n : SlotId) : State :=
  match s.activeDwell n with
  | some (id, _) => State.closeSeg { s with dwell := s.dwell.set n none } id .done
  | none => s

/-- A resting slot's silence to an idle call or a roll call (R17, R108): its position, rest cells and held cells are kept. -/
def State.silent (s : State) (n : SlotId) : State :=
  match (s.slot n).state with
  | .absent => s
  | .retired => s
  | .faulted => s
  | _ =>
    let s := ((s.cutDwell n).withdrawGranted n).rehold n
    (s.faultSlot n .noReply).endBatches

/-! ### Halts, the entry into STOPPING and into HOLD -/

/-- The step orders of a branch that have not been sent, and those that wait after a NAK-busy (R105). -/
def Branch.orders (b : Branch) : List Order :=
  (b.queue.filterMap fun e => match e with
    | .order o => some o
    | _ => none) ++ b.backlog

/-- An order is removed by a halt (R105): withdrawn with its segment when unsent; after a NAK-busy its segment closes
FAILED(INTERRUPTED) with counts 0 and 0 (R97). -/
def State.haltOrder (s : State) (b : BranchId) (o : Order) : State :=
  if s.orderActive o then (s.removeOrder (slotOf b o.drop) o.seg).applyOutcome b o.drop o.seg false false (.failed .interrupted) 0 0
  else s.withdrawWhere (slotOf b o.drop) fun _ => true

/-- The entry is a step order. -/
def Entry.isOrder : Entry → Bool
  | .order _ => true
  | _ => false

/-- A halt is requested on a branch (R105): no step order stays in its queue or its backlog. The orders removed are taken in the
order of the queue, then of the backlog; over a STOP the branches are taken 0 to 3, and the SEG_FAILED of orders that waited after a
NAK-busy are raised in that order (log 54). -/
def State.requestHalt (s : State) (b : BranchId) : State :=
  let s := (s.branch b).orders.foldl (fun s o => s.haltOrder b o) s
  s.updBranch b fun br =>
    { br with haltPlace := true, halting := true, queue := br.queue.filter fun e => !e.isOrder, backlog := [] }

/-- The sector enters STOPPING (R155, R156, R157). -/
def State.enterStopping (s : State) : State :=
  let s := s.enterSector .stopping
  let s := (allSlots.foldl (fun s n => s.withdrawWhere n fun _ => true) s).withdrawClaims
  let s := allSlots.foldl State.endDwell s
  let s := allBranches.foldl State.requestHalt { s with haltOut := allBranches }
  s.judgeAll.endBatches

/-- The sector enters HOLD by request (R69, R87; log 15). -/
def State.enterHold (s : State) : State := (s.enterSector .hold).holdWithdrawals.endBatches

/-- STOP, by request or by the line, in a sector state (R72, R155, R160). -/
def State.takeStop (s : State) : State :=
  match s.sector with
  | .run => s.enterStopping
  | .hold => s.enterStopping
  | .starting => { s with startStop := true }
  | _ => s

/-- The end of an event: buses, released cells, scan, returned records. `old` is the state before it. -/
def State.finish (s : State) (old : State) : State := s.runBuses.settleEvent old

end Sys2Proof.Machine
end

