-- ==== Sys2Proof/Machine/Ports.lean ====
section
/-! DEFINITION. The Port Interface and the send side of the ports: the life of a request (R169 to R172), the frame begun on a free
line (R173), summaries (R178) and the records of a position stream (R143, R144). -/

namespace Sys2Proof.Machine

/-! ### The master list (R174) -/

/-- The code of a request: its place in the list, from 1. -/
def ReqCode.number : ReqCode → Nat
  | .openBatch => 1 | .loadSegment => 2 | .commitBatch => 3 | .cancelOpen => 4 | .abortBatch => 5
  | .ackLoadError => 6 | .queryBatch => 7 | .hold => 8 | .resume => 9 | .stop => 10
  | .queryQueue => 11 | .querySlot => 12 | .clearFault => 13 | .retire => 14 | .unretire => 15
  | .storeRetired => 16 | .measure => 17 | .setFootprint => 18 | .loadTrim => 19 | .streamPositions => 20
  | .streamArm => 21 | .streamStop => 22 | .readSense => 23 | .clearChange => 24 | .setSenseWatch => 25
  | .queryCell => 26 | .takeBranch => 27 | .giveBranch => 28 | .directFrame => 29 | .census => 30
  | .queryBranch => 31 | .reclaimBorder => 32 | .queryLink => 33 | .setTimebase => 34 | .writeStore => 35
  | .resetSector => 36 | .subscribe => 37 | .queryNotices => 38

/-- The role is named in the request's row. -/
def ReqCode.allowed (c : ReqCode) (r : Role) : Bool :=
  match c with
  | .openBatch => r = .plan
  | .loadSegment => r = .plan
  | .commitBatch => r = .plan
  | .cancelOpen => r = .plan
  | .abortBatch => r = .plan
  | .ackLoadError => r = .plan
  | .queryBatch => r ≠ .metro
  | .hold => true
  | .resume => r ≠ .metro
  | .stop => true
  | .queryQueue => r = .service
  | .querySlot => true
  | .clearFault => r ≠ .metro
  | .retire => r ≠ .service
  | .unretire => r = .service
  | .storeRetired => r = .service
  | .measure => r = .metro
  | .setFootprint => r ≠ .service
  | .loadTrim => r = .metro
  | .streamPositions => r = .metro
  | .streamArm => r = .metro
  | .streamStop => r = .metro
  | .readSense => r ≠ .plan
  | .clearChange => r = .metro
  | .setSenseWatch => r ≠ .plan
  | .queryCell => r = .service
  | .takeBranch => r = .service
  | .giveBranch => r = .service
  | .directFrame => r = .service
  | .census => r = .service
  | .queryBranch => r = .service
  | .reclaimBorder => r = .service
  | .queryLink => r = .service
  | .setTimebase => r ≠ .metro
  | .writeStore => r = .service
  | .resetSector => r = .service
  | .subscribe => true
  | .queryNotices => true

/-- The requests of PLAN and METRO that R172 lets through while the sector is UNCONFIGURED. -/
def ReqCode.passesUnconfigured : ReqCode → Bool
  | .hold | .stop | .streamStop | .querySlot | .queryBatch | .queryNotices | .subscribe => true
  | _ => false

/-! ### The send side (R173) -/

/-- The SUMMARY of each subscribed kind with a held-over count, in increasing kind number; each such count becomes 0 (R178). -/
def Port.summarize (p : Port) : Port :=
  let due := NoticeKind.all.filter fun k => p.subscribed k && decide (p.heldOver.get k.idx ≠ 0)
  { p with
    notices := p.notices ++ due.map fun k => .summary k (p.heldOver.get k.idx)
    heldOver := due.foldl (fun t k => t.set k.idx 0) p.heldOver }

/-- The notice at the head of the queue begins to be sent (R173); an emptied queue takes its summaries (R178). -/
def Port.beginNotice (p : Port) : Port :=
  match p.notices with
  | nt :: l =>
    let p := { p with notices := l, sending := some (.notice nt), lastKind := .notice }
    if l.isEmpty then p.summarize else p
  | [] => p

/-- The ACTIVE segment of slot `n` (R143). -/
def State.activeSeg (s : State) (n : SlotId) : Option Segment :=
  ((s.grantedSegs n).find? fun x => decide (x.2.state = .active)).map (·.2)

/-- The record a run offers: its next slot, as it stands (R143). -/
def State.nextRecord (s : State) : Option PosRecord :=
  match s.stream with
  | none => none
  | some r =>
    if h : r.first + r.sent < 96 then
      let n : SlotId := ⟨r.first + r.sent, h⟩
      let sl := s.slot n
      some { index := r.sent, slot := n, state := sl.state, pos := sl.stand.pos, fault := sl.fault,
             tag := (s.activeSeg n).map (·.tag) }
    else none

/-- A record begins to be sent (R143); the last ends the run (R144). -/
def State.beginRecord (s : State) (p : PortId) (rec : PosRecord) : State :=
  let s := s.updPort p fun q => { q with sending := some (.record rec), lastKind := .record }
  match s.stream with
  | none => s
  | some r =>
    if r.count ≤ r.sent + 1 then State.raise { s with stream := none } (.streamEnd (r.sent + 1) false)
    else { s with stream := some { r with sent := r.sent + 1 } }

/-- The record offered to port `p`: to the METRO port only (R141, R143). -/
def State.offered (s : State) (p : PortId) : Option PosRecord :=
  if (s.port p).role = some .metro then s.nextRecord else none

/-- A free line begins its next frame (R173). -/
def State.beginFrame (s : State) (p : PortId) : State :=
  let q := s.port p
  if q.role.isNone || q.sending.isSome then s
  else
    match q.answers, q.notices, s.offered p with
    | a :: l, _, _ => s.updPort p fun q => { q with answers := l, sending := some (.answer a) }
    | [], [], none => s
    | [], [], some r => s.beginRecord p r
    | [], _ :: _, none => s.updPort p Port.beginNotice
    | [], _ :: _, some r => if q.lastKind = .notice then s.beginRecord p r else s.updPort p Port.beginNotice

/-- The end of an event on the ports: every free line begins its next frame (log 3). -/
def State.kickPorts (s : State) : State := allPorts.foldl State.beginFrame s

/-! ### The receive side (R169, R170) -/

/-- The PORT_BUSY answers a refusal list can hold (R170). -/
def refusalRoom : Nat := 4

/-- A request is refused PORT_BUSY (R170). -/
def State.refuseBusy (s : State) (p : PortId) (code seq : Nat) : State :=
  s.updPort p fun q =>
    if (q.answers.filter fun a => !a.own).length < refusalRoom then
      { q with answers := q.answers ++ [{ own := false, code := code, seq := seq, result := .portBusy, fields := .none }] }
    else q

/-- A request becomes the request in hand (R169). -/
def State.takeInHand (s : State) (p : PortId) (code seq : Nat) : State :=
  s.updPort p fun q => { q with busy := true, inHand := some { code := code, seq := seq } }

/-- What an owning rule does with a request: the state after it, and its answer unless deferred (R171). -/
structure Reply where
  state : State
  answer : Option (Result × AnswerFields)

/-- Answered with no fields. -/
def State.reply (s : State) (r : Result) : Reply := { state := s, answer := some (r, .none) }
/-- Answered OK with fields. -/
def State.replyWith (s : State) (f : AnswerFields) : Reply := { state := s, answer := some (.ok, f) }
/-- The answer is deferred, or made already in the event (R171). -/
def State.deferred (s : State) : Reply := { state := s, answer := none }

/-- The checks of role and of UNCONFIGURED before the owning rule (R169, R172). -/
def State.judgeRequest (s : State) (r : Role) (c : ReqCode) (rule : State → Reply) : Reply :=
  if c.allowed r = false then s.reply .role
  else if s.sector = .unconfigured ∧ r ≠ .service ∧ c.passesUnconfigured = false then s.reply .unconfigured
  else rule s

/-- A reply's answer is made on the port. -/
def Reply.make (r : Reply) (p : PortId) : State :=
  match r.answer with
  | some (res, f) => r.state.answer p res f
  | none => r.state

/-- A request frame of good form is taken (R169 to R173). A held part takes none (R187; log 24), a disabled port discards it
(R168). -/
def State.request (s : State) (p : PortId) (c : ReqCode) (seq : Nat) (rule : State → Reply) : State :=
  if s.resetHeld then s
  else
    match (s.port p).role with
    | none => s
    | some r =>
      if (s.port p).busy then (s.refuseBusy p c.number seq).kickPorts
      else (((s.takeInHand p c.number seq).judgeRequest r c rule).make p).kickPorts

/-- A request frame that fails its form (R169, third check): answered BAD_ARG, or refused PORT_BUSY before it. -/
def State.badForm (s : State) (p : PortId) (code seq : Nat) : State :=
  if s.resetHeld then s
  else
    match (s.port p).role with
    | none => s
    | some _ =>
      if (s.port p).busy then (s.refuseBusy p code seq).kickPorts
      else ((s.takeInHand p code seq).answer p .badArg .none).kickPorts

/-- Any other event of a part that is not held in reset: `f`, then the ports. -/
def State.event (s : State) (f : State → State) : State :=
  if s.resetHeld then s else (f s).kickPorts

/-- BAD_REQUEST_FRAME: a frame that fails its check is discarded without answer (R169); a WRITE_STORE of an unknown item is judged
as a WRITE_STORE, by its role first, and refused BAD_ARG by its owning rule (R185, R193; log 49). -/
def execBadRequestFrame (p : PortId) (bad : BadFrame) (s : State) : Host.Outcome State Fault Refusal :=
  match bad with
  | .failedCheck => .next s
  | .wrongForm code seq => .next (s.badForm p code seq)
  | .unknownItem seq => .next (s.request p .writeStore seq fun s => s.reply .badArg)

end Sys2Proof.Machine
end

