-- ==== Sys2Proof/Machine/Batches.lean ====
section
/-! DEFINITION. The staged load and the batches: OPEN_BATCH, LOAD_SEGMENT, COMMIT_BATCH, CANCEL_OPEN, ABORT_BATCH, ACK_LOAD_ERROR and
QUERY_BATCH (R54 to R65). -/

namespace Sys2Proof.Machine

/-! ### OPEN_BATCH (R53, R54) -/

/-- The places of the batch table. -/
def batchPlaces : List (Fin 4) := List.finRange 4

/-- A free batch record (log 20: the lowest). -/
def State.freeBatch (s : State) : Option (Fin 4) := batchPlaces.find? fun i => (s.batches.get i).isNone

/-- The end order of a record, when it is DONE or ABORTED. -/
def State.endOrderAt (s : State) (i : Fin 4) : Option Nat := (s.batches.get i).bind (·.endOrder)

/-- Of two places, the one that reached DONE or ABORTED earlier. -/
def State.earlierEnd (s : State) (best : Option (Fin 4)) (i : Fin 4) : Option (Fin 4) :=
  match s.endOrderAt i, best.bind s.endOrderAt with
  | some a, some b => if a < b then some i else best
  | some _, none => some i
  | none, _ => best

/-- The DONE or ABORTED record that reached that state earliest (R53). -/
def State.reusable (s : State) : Option (Fin 4) := batchPlaces.foldl s.earlierEnd none

/-- The record an OPEN_BATCH takes (R53). -/
def State.batchPlace (s : State) : Option (Fin 4) :=
  match s.freeBatch with
  | some i => some i
  | none => s.reusable

/-- The record of a batch just opened (R54). -/
def Batch.fresh (id : Nat) : Batch :=
  { id := id, state := .opened, loaded := 0, pending := 0, done := 0, failed := 0, skipped := 0, staging := [], endOrder := none }

/-- OPEN_BATCH (R54). -/
def openBatchRule (id : Nat) (s : State) : Reply :=
  if s.loadError then s.reply .loadErrorSet
  else if s.openBatch.isSome then s.sequenceViolation.reply .state
  else if id = 0 then s.reply .badArg
  else if (s.batchOf id).isSome then s.reply .dupId
  else
    match s.batchPlace with
    | none => s.reply .tableFull
    | some i => State.reply { s with batches := s.batches.set i (some (.fresh id)) } .ok

def execOpenBatch (p : PortId) (seq id : Nat) (s : State) : Host.Outcome State Fault Refusal :=
  .next (s.request p .openBatch seq (openBatchRule id))

/-! ### LOAD_SEGMENT (R55) and what LOAD_TRIM shares with it -/

/-- A sweep cell lies in the working fixed list (R25, R55). -/
def State.keepout (s : State) (sweep : List CellId) : Bool := sweep.any fun c => decide (c ∈ s.fixed)

/-- The link of a cell whose border-table home is REMOTE. -/
def State.remoteLink (s : State) (c : CellId) : Option LinkId :=
  match s.borderOf c.val with
  | some e => if e.home = .remote then some e.link else none
  | none => none

/-- Sweep cells of REMOTE home on two or more links (R55). -/
def State.twoLinks (s : State) (sweep : List CellId) : Bool :=
  match sweep.filterMap s.remoteLink with
  | [] => false
  | k :: l => l.any fun j => decide (j ≠ k)

/-- Slot `n`'s staged count in a batch (R51, R52). -/
def State.stagedFor (s : State) (b : Batch) (n : SlotId) : Nat :=
  (b.staging.filter fun id => match s.seg id with
    | some g => decide (g.slot = n)
    | none => false).length

/-- The longest chain (R50). -/
def chainRoom : Nat := 32

/-- A record at the top of the free list takes a segment (R48, R55). -/
def State.takeRecord (s : State) (id : SegId) (rest : List SegId) (g : Segment) : State :=
  { s with free := rest, pool := s.pool.set id (some g) }

/-- LOAD_SEGMENT (R55). -/
def loadSegmentRule (d : Descriptor) (s : State) : Reply :=
  if s.loadError then s.reply .loadErrorSet
  else
    match s.openBatch with
    | none => s.sequenceViolation.reply .noBatch
    | some b =>
      match Descriptor.read d with
      | none => s.reply .badArg
      | some (n, body) =>
        if (s.slot n).state = .absent then s.reply .absent
        else if (s.slot n).state = .retired then s.reply .retired
        else if s.keepout body.sweep then s.reply .keepout
        else if s.twoLinks body.sweep then s.reply .twoLinks
        else
          match s.free with
          | [] => s.reply .poolEmpty
          | id :: rest =>
            if chainRoom < s.stagedFor b n + (s.slot n).chain.length + 1 then s.reply .chainFull
            else
              let g : Segment :=
                { slot := n, body := body, tag := d.tag, batch := some b.id, state := .staged, continuation := false }
              ((s.takeRecord id rest g).updBatch b.id fun r =>
                { r with loaded := r.loaded + 1, staging := r.staging ++ [id] }).replyWith (.segment id)

def execLoadSegment (p : PortId) (seq : Nat) (d : Descriptor) (s : State) : Host.Outcome State Fault Refusal :=
  .next (s.request p .loadSegment seq (loadSegmentRule d))

/-! ### COMMIT_BATCH (R58, R59) -/

/-- The lowest slot with staged segments that is now RETIRED (R58). -/
def State.retiredStaged (s : State) (b : Batch) : Option SlotId :=
  allSlots.find? fun n => decide (0 < s.stagedFor b n) && decide ((s.slot n).state = .retired)

/-- The lowest slot whose chain has no room for its staged segments (R58). -/
def State.crowdedStaged (s : State) (b : Batch) : Option SlotId :=
  allSlots.find? fun n => decide (0 < s.stagedFor b n) && decide (chainRoom < s.stagedFor b n + (s.slot n).chain.length)

/-- A staged segment goes to the tail of its slot's chain (R59). -/
def State.chainStaged (s : State) (id : SegId) : State :=
  match s.seg id with
  | some g =>
    (s.updSeg id fun g => { g with state := .chained }).updSlot g.slot fun sl => { sl with chain := sl.chain ++ [id] }
  | none => s

/-- The commit is carried out (R59, R60). -/
def State.commit (s : State) (b : Batch) : State :=
  ((b.staging.foldl State.chainStaged s).updBatch b.id fun r =>
    { r with state := .running, pending := r.loaded, staging := [] }).judgeAll.endBatches

/-- COMMIT_BATCH (R58). -/
def commitBatchRule (id : Nat) (s : State) : Reply :=
  if s.loadError then s.reply .loadErrorSet
  else
    match s.openBatch with
    | none => s.sequenceViolation.reply .noBatch
    | some b =>
      if b.id ≠ id then s.sequenceViolation.reply .noBatch
      else
        match s.retiredStaged b, s.crowdedStaged b with
        | some n, _ => { state := s, answer := some (.retired, .slotNamed n) }
        | none, some n => { state := s, answer := some (.chainFull, .slotNamed n) }
        | none, none => (s.commit b).reply .ok

def execCommitBatch (p : PortId) (seq id : Nat) (s : State) : Host.Outcome State Fault Refusal :=
  .next (s.request p .commitBatch seq (commitBatchRule id))

/-! ### CANCEL_OPEN, ACK_LOAD_ERROR (R56, R57) -/

/-- CANCEL_OPEN (R57). -/
def cancelOpenRule (s : State) : Reply :=
  match s.openBatch with
  | some b => (s.abandon b).reply .ok
  | none => s.reply .noBatch

def execCancelOpen (p : PortId) (seq : Nat) (s : State) : Host.Outcome State Fault Refusal :=
  .next (s.request p .cancelOpen seq cancelOpenRule)

/-- ACK_LOAD_ERROR (R56). -/
def ackLoadErrorRule (s : State) : Reply := State.reply { s with loadError := false } .ok

def execAckLoadError (p : PortId) (seq : Nat) (s : State) : Host.Outcome State Fault Refusal :=
  .next (s.request p .ackLoadError seq ackLoadErrorRule)

/-! ### ABORT_BATCH (R61) -/

/-- The CHAINED segments of a batch are SKIPPED, its unmarked GRANTED ones withdrawn and SKIPPED, in slot `n`'s chain (R61). A
look-ahead of another batch that is left the only granted segment is dispatched (R85; log 18). -/
def State.abortSlot (s : State) (id : Nat) (n : SlotId) : State :=
  let first := (s.grantedSegs n).head?.map (·.1)
  let s := (s.skipWhere n fun g => if g.batch = some id ∧ g.state = .chained then some .aborted else none).withdrawWhere n
    fun g => decide (g.batch = some id) && !g.continuation
  match s.grantedSegs n with
  | x :: _ => if first = some x.1 then s else s.dispatch n x.1
  | [] => s

/-- The abort is carried out (R61, R62). -/
def State.abortBatch (s : State) (b : Batch) : State :=
  let t := s.updBatch b.id fun r => { r with state := .aborting }
  ((allSlots.foldl (fun s n => s.abortSlot b.id n) t).judgeAll.endBatches).finish s

/-- ABORT_BATCH (R61). -/
def abortBatchRule (id : Nat) (s : State) : Reply :=
  match s.batchOf id with
  | none => s.reply .noBatch
  | some b =>
    match b.state with
    | .opened => s.reply .state
    | .running => (s.abortBatch b).reply .ok
    | .aborting => s.reply .ok
    | .done => s.reply .state
    | .aborted => s.reply .state

def execAbortBatch (p : PortId) (seq id : Nat) (s : State) : Host.Outcome State Fault Refusal :=
  .next (s.request p .abortBatch seq (abortBatchRule id))

/-! ### QUERY_BATCH (R65) -/

/-- A batch record as it is read. -/
def Batch.view (b : Batch) : BatchView :=
  { id := b.id, state := b.state, loaded := b.loaded, staged := b.staging.length, pending := b.pending, done := b.done,
    failed := b.failed, skipped := b.skipped }

/-- The staging-list entries of each slot that has any, in increasing slot order (log 42). -/
def State.stagingView (s : State) (b : Batch) : List (SlotId × Nat) :=
  (allSlots.map fun n => (n, s.stagedFor b n)).filter fun x => decide (0 < x.2)

/-- QUERY_BATCH (R65). An id of 0 lists the records by their place in the table (log 52). -/
def queryBatchRule (id : Nat) (s : State) : Reply :=
  let n := s.free.length
  if id = 0 then
    s.replyWith (.batchTable s.loadError n ((s.batches.items.filterMap fun b => b).map Batch.view))
  else
    match s.batchOf id with
    | none => { state := s, answer := some (.noBatch, .noBatch s.loadError n) }
    | some b => s.replyWith (.batch s.loadError n b.view (s.stagingView b))

def execQueryBatch (p : PortId) (seq id : Nat) (s : State) : Host.Outcome State Fault Refusal :=
  .next (s.request p .queryBatch seq (queryBatchRule id))

end Sys2Proof.Machine
end

