-- ==== Sys2Proof/Machine/Lines.lean ====
section
/-! DEFINITION. What the branch lines bring: replies and reply windows (R91, R97, R99 to R104, R109), the timers of the branches
(R96 to R100, R107), of dwells and backoffs (R82, R86), and the scan (R76). -/

namespace Sys2Proof.Machine

/-! ### The completion compare (R102, R103) -/

/-- The outcome of a final status STOPPED (R102). -/
def stoppedOutcome (contact haltMark : Bool) : FailReason :=
  if contact then .collided else if haltMark then .interrupted else .short

/-- A DONE whose counts are compared with the ordered deltas (R102). -/
def countsOutcome (dTheta dPhi : Int) (r : StatusReply) : SegOutcome :=
  if r.dTheta = dTheta ∧ r.dPhi = dPhi then .done else .failed .short

/-- The outcome of a DONE (R102, R103); no DWELL has one. -/
def SegBody.doneOutcome (r : StatusReply) : SegBody → SegOutcome
  | .move a b _ _ _ => countsOutcome a b r
  | .trim a b _ _ _ => countsOutcome a b r
  | .datum .. => if r.datumFound then .done else .failed .datumMissing
  | .dwell _ => .done

/-- The outcome of a status, when it is final (R99, R102, R103). -/
def SegBody.compare (body : SegBody) (haltMark : Bool) (r : StatusReply) : Option SegOutcome :=
  match r.state with
  | .idle => none
  | .running => none
  | .done => some (body.doneOutcome r)
  | .stopped => some (.failed (stoppedOutcome r.senses.contact haltMark))

/-! ### The transaction in progress -/

/-- The bus is free again. -/
def State.freeBus (s : State) (b : BranchId) : State := s.updBranch b fun br => { br with bus := none }

/-- The poll-list entry of a drop. -/
def Branch.pollOf (br : Branch) (d : DropId) : Option PollEntry := br.poll.find? fun e => decide (e.drop = d)

/-- An event of branch `b`'s bus: `f`, then the end of the event. -/
def State.busEvent (s : State) (f : State → State) : State := s.event fun s => (f s).finish s

/-! ### ACK and NAK-busy (R97, R158) -/

/-- ACK: the drop joins the tail of the poll list (R97). -/
def State.takeAck (s : State) (b : BranchId) (o : Order) : State :=
  let t := s.now
  s.updBranch b fun br =>
    { br with
      bus := none
      poll := br.poll ++ [{ drop := o.drop, seg := o.seg, period := o.period, keep := o.keep.getD false, ackTime := t,
                            lastCall := t, due := false, haltMark := false, finalMark := false, finalWanted := false }] }

/-- An order goes back to wait: at the head of the queue when a place is free, else at the head of the backlog (R97). -/
def Branch.requeue (br : Branch) (o : Order) : Branch :=
  if br.queue.length < places then { br with queue := .order o :: br.queue } else { br with backlog := o :: br.backlog }

/-- NAK-busy (R97); under a halt the segment closes FAILED(INTERRUPTED) (R158; log 10). -/
def State.takeNak (s : State) (b : BranchId) (o : Order) (left : Nat) : State :=
  let t := s.freeBus b
  if (s.branch b).halting then t.complete b o.drop o.seg false false (.failed .interrupted) 0 0
  else if left = 0 then t.complete b o.drop o.seg false false (.failed .stalled) 0 0
  else t.updBranch b fun br => br.requeue { o with left := left - 1, naked := true, wait := some (s.now + nakWait) }

/-- A reply to the step order of drop `d`, if that is on the bus (R91). -/
def State.onOrder (s : State) (b : BranchId) (d : DropId) (f : State → Order → Nat → State) : State :=
  match (s.branch b).bus with
  | some { call := .entry (.order o), left := l } => if o.drop = d then s.busEvent fun s => f s o l else s
  | _ => s

/-- ACK. -/
def execAck (b : BranchId) (d : DropId) (s : State) : Host.Outcome State Fault Refusal :=
  .next (s.onOrder b d fun s o _ => s.takeAck b o)

/-- NAK-busy. -/
def execNakBusy (b : BranchId) (d : DropId) (s : State) : Host.Outcome State Fault Refusal :=
  .next (s.onOrder b d fun s o l => s.takeNak b o l)

/-! ### STATUS (R99 to R104, R147) -/

/-- What the status of a poll-list drop leads to: a final status completes its order; the final call's RUNNING or IDLE is
FAILED(STALLED); else the order is still in flight. -/
def State.readStatus (s : State) (b : BranchId) (d : DropId) (final : Bool) (r : StatusReply) : State :=
  match (s.branch b).pollOf d with
  | none => s
  | some e =>
    match s.seg e.seg with
    | none => s
    | some g =>
      match g.body.compare e.haltMark r with
      | some o => s.complete b d e.seg (decide (r.state = .done)) e.keep o r.dTheta r.dPhi
      | none => if final then s.complete b d e.seg false e.keep (.failed .stalled) 0 0 else s

/-- A STATUS reply is taken: senses first (R147), then by what the call was made for (R99, R100, R107). -/
def State.takeStatus (s : State) (b : BranchId) (d : DropId) (w : Purpose) (r : StatusReply) : State :=
  let s := (s.freeBus b).takeSenses (slotOf b d) r.senses
  match w with
  | .idle => s
  | .poll => s.readStatus b d false r
  | .final => s.readStatus b d true r

/-- STATUS. -/
def execStatus (b : BranchId) (d : DropId) (r : StatusReply) (s : State) : Host.Outcome State Fault Refusal :=
  match (s.branch b).bus with
  | some { call := .entry (.status e w), left := _ } =>
    if e = d then .next (s.busEvent fun s => s.takeStatus b d w r) else .next s
  | _ => .next s

/-! ### ROLL and the census (R8, R9, R109, R110) -/

/-- A slot found by a census becomes UNKNOWN, populated, with its shadow (R8, R9, R29). -/
def State.found (s : State) (n : SlotId) : State :=
  if (s.slot n).state = .absent then
    ((s.castShadow n).updSlot n fun sl => { sl with state := .unknown, populated := true }).judge n
  else s

/-- A silence to a roll call: the start-up census leaves the slot as it is, ABSENT, RETIRED (R8) or PARKED by an UNRETIRE taken before
the roll call (log 41); a SERVICE CENSUS applies R9. -/
def State.notFound (s : State) (n : SlotId) : State :=
  match s.census with
  | .service => s.silent n
  | _ => s

/-- The branch reports a roll-call result (R109, R110). -/
def State.reportRoll (s : State) (b : BranchId) : State :=
  s.updBranch b fun br => { br with rollsDone := br.rollsDone + 1 }

/-- ROLL. -/
def execRoll (b : BranchId) (d : DropId) (s : State) : Host.Outcome State Fault Refusal :=
  match (s.branch b).bus with
  | some { call := .entry (.roll e), left := _ } =>
    if e = d then .next (s.busEvent fun s => ((s.freeBus b).found (slotOf b d)).reportRoll b) else .next s
  | _ => .next s

/-- A frame with a bad check, another drop's address or a kind the call does not expect is discarded (R91). -/
def execBranchFrameDiscarded (_ : BranchId) (s : State) : Host.Outcome State Fault Refusal := .next s

/-! ### The end of the reply window (R91, R97, R101, R108, R109, R112) -/

/-- The most bytes of a reply to a direct frame that are returned (R192). -/
def replyRoom : Nat := 32

/-- A call ends without reply after its last attempt. An order with a NAK-busy among its attempts is FAILED(STALLED) by R97, under a halt
too (log 57). -/
def State.noReply (s : State) (b : BranchId) (e : Entry) (received : List Byte) : State :=
  let s := s.freeBus b
  match e with
  | .order o => s.complete b o.drop o.seg false false (.failed (if o.naked then .stalled else .noReply)) 0 0
  | .status d .idle => s.silent (slotOf b d)
  | .status d _ =>
    match (s.branch b).pollOf d with
    | some p => s.complete b d p.seg false p.keep (.failed .noReply) 0 0
    | none => s
  | .roll d => (s.notFound (slotOf b d)).reportRoll b
  | .direct _ _ => s.answerService .ok (.reply (received.take replyRoom))

/-- The window ends (R91): a call with attempts left is repeated at once; a halt and a direct frame have one attempt (log 4, 29). -/
def State.windowEnd (s : State) (b : BranchId) (received : List Byte) : State :=
  match (s.branch b).bus with
  | none => s
  | some { call := .halt, left := _ } => s.freeBus b
  | some { call := .entry e, left := 0 } => s.noReply b e received
  | some { call := .entry e, left := l + 1 } =>
    s.updBranch b fun br => { br with bus := some { call := .entry e, left := l }, callAt := s.now }

/-- REPLY_WINDOW_END: the 2 ms window of the call on the bus has run (R91). -/
def execReplyWindowEnd (b : BranchId) (received : List Byte) (s : State) : Host.Outcome State Fault Refusal :=
  if (s.branch b).bus.isSome then
    .next (s.busEvent fun s => (s.clockTo ((s.branch b).callAt + windowTime)).windowEnd b received)
  else .next s

/-! ### Timers of the branches -/

/-- A branch timer ends: the clock, the mark, the branch's arbiter. -/
def State.timerEvent (s : State) (b : BranchId) (t : Nat) (f : State → State) : State :=
  s.event fun s => (f (s.clockTo t)).arbitrate b

/-- SETTLE_END (R96). -/
def execSettleEnd (b : BranchId) (d : DropId) (s : State) : Host.Outcome State Fault Refusal :=
  let x := (s.branch b).drops.get d
  match x.settling, x.lastDone with
  | true, some t =>
    .next (s.timerEvent b (t + settleTime) fun s =>
      s.updBranch b fun br => { br with drops := br.drops.upd d fun x => { x with settling := false } })
  | _, _ => .next s

/-- The NAK-busy wait of an order of drop `d` ends. -/
def Order.endWait (d : DropId) (o : Order) : Order := if o.drop = d then { o with wait := none } else o

/-- The same in a queue entry. -/
def Entry.endWait (d : DropId) : Entry → Entry
  | .order o => .order (o.endWait d)
  | e => e

/-- The end of the NAK-busy wait of drop `d`, if an order of it waits (R97). -/
def Branch.nakWaitEnd (br : Branch) (d : DropId) : Option Nat :=
  (br.orders.find? fun o => decide (o.drop = d) && o.wait.isSome).bind (·.wait)

/-- NAK_BUSY_WAIT_END (R97). -/
def execNakBusyWaitEnd (b : BranchId) (d : DropId) (s : State) : Host.Outcome State Fault Refusal :=
  match (s.branch b).nakWaitEnd d with
  | some t =>
    .next (s.timerEvent b t fun s =>
      s.updBranch b fun br =>
        { br with queue := br.queue.map (Entry.endWait d), backlog := br.backlog.map (Order.endWait d) })
  | none => .next s

/-- A poll-list entry of drop `d` changed. -/
def State.updPoll (s : State) (b : BranchId) (d : DropId) (f : PollEntry → PollEntry) : State :=
  s.updBranch b fun br => { br with poll := br.poll.map fun e => if e.drop = d then f e else e }

/-- STATUS_CALL_DUE (R98); regular calls have ended once the final-call mark is set (R100). -/
def execStatusCallDue (b : BranchId) (d : DropId) (s : State) : Host.Outcome State Fault Refusal :=
  match (s.branch b).pollOf d with
  | some e =>
    if e.due || e.finalMark then .next s
    else .next (s.timerEvent b (e.lastCall + statusSpacing) fun s => s.updPoll b d fun e => { e with due := true })
  | none => .next s

/-- The larger of two step counts without sign. -/
def maxSteps (a b : Int) : Nat := max a.natAbs b.natAbs

/-- The steps that the expected duration of a segment counts (R100). -/
def SegBody.expectedSteps : SegBody → Nat
  | .move a b _ _ _ => maxSteps a b
  | .trim a b _ _ _ => maxSteps a b
  | .datum .theta _ _ _ => 25000
  | .datum .phi _ _ _ => 13000
  | .datum .both _ _ _ => 25000
  | .dwell _ => 0

/-- The stall limit: 2 × expected duration + 100 ms (R100). -/
def stallTime (steps period : Nat) : Nat := 2 * (steps * period) + ms 100

/-- The time of the stall limit of an order in flight (R100). -/
def State.stallAt (s : State) (e : PollEntry) : Nat :=
  e.ackTime + stallTime (((s.seg e.seg).map fun g => g.body.expectedSteps).getD 0) e.period

/-- STALL_LIMIT (R100). -/
def execStallLimit (b : BranchId) (d : DropId) (s : State) : Host.Outcome State Fault Refusal :=
  match (s.branch b).pollOf d with
  | some e =>
    if e.finalMark then .next s
    else .next (s.timerEvent b (s.stallAt e) fun s =>
      s.updPoll b d fun e => { e with finalMark := true, finalWanted := true, due := false })
  | none => .next s

/-- IDLE_CALL_DUE (R107). -/
def execIdleCallDue (b : BranchId) (d : DropId) (s : State) : Host.Outcome State Fault Refusal :=
  let x := (s.branch b).drops.get d
  match x.idleTime, x.idleDue with
  | some t, false =>
    .next (s.timerEvent b (t + idleSpacing) fun s =>
      s.updBranch b fun br => { br with drops := br.drops.upd d fun x => { x with idleDue := true } })
  | _, _ => .next s

/-! ### Dwells, backoffs and the scan -/

/-- DWELL_TIMER_END (R86). -/
def execDwellTimerEnd (n : SlotId) (s : State) : Host.Outcome State Fault Refusal :=
  match s.dwell.get n with
  | some t => .next (s.busEvent fun s => (((s.clockTo t).endDwell n).judge n).endBatches)
  | none => .next s

/-- BACKOFF_END (R82). -/
def execBackoffEnd (n : SlotId) (s : State) : Host.Outcome State Fault Refusal :=
  match (s.entry n).bind (·.backoff) with
  | some t => .next (s.event fun s => ((s.clockTo t).updEntry n fun e => { e with backoff := none }).causeScan)
  | none => .next s

/-- SCAN (R76): made in RUN when one has been started (log 2). -/
def execScan (s : State) : Host.Outcome State Fault Refusal :=
  if s.scanDue && decide (s.sector = .run) then .next (s.busEvent State.makeScan) else .next s

end Sys2Proof.Machine
end

