-- ==== Sys2Proof/Machine/Border.lean ====
section
/-! DEFINITION. The Border Exchange: frames received on the links (R117 to R130), the timers of claims and syncs (R120, R127, R131),
and the requests RECLAIM_BORDER, QUERY_LINK (R132, R133) and QUERY_CELL (R43). -/

namespace Sys2Proof.Machine

/-! ### Claims that end (R124 to R127, R131) -/

/-- The outstanding claim is removed and the last claim end set (R123). -/
def State.endClaim (s : State) (k : LinkId) (c : Claim) (e : ClaimEnd) : State :=
  s.updLink k fun l => { l with claim := none, lastEnd := some (c.number, e) }

/-- A claim that the Grant Unit still awaits ends without a grant (R31, R82): its PENDING cells are FREE, the mark clears, the
backoff starts. A withdrawn claim has nothing left there (R124). -/
def State.backOff (s : State) (c : Claim) : State :=
  if c.withdrawn then s
  else
    let t := s.now + backoffTime
    (s.freePending c.slot).updEntry c.slot fun e => { e with pendingClaim := false, backoff := some t }

/-- The claim of link `k` ends as a timeout ends it (R127): its cells released, the backoff, a scan (R82; log 22). -/
def State.timeOutClaim (s : State) (k : LinkId) : State :=
  match (s.link k).claim with
  | some c => (((s.sendRelease k c.cells).endClaim k c .timedOut).backOff c).causeScan
  | none => s

/-- The timeouts in a row that take a link DOWN (R119). -/
def downCount : Nat := 3

/-- A timeout counts as an answer timeout (R119); the third takes the link DOWN, which ends an outstanding claim (R131). -/
def State.countTimeout (s : State) (k : LinkId) : State :=
  if (s.link k).state = .down then s
  else
    let s := s.updLink k fun l => { l with timeouts := l.timeouts + 1 }
    if downCount ≤ (s.link k).timeouts then (s.enterLink k .down).timeOutClaim k else s

/-- CLAIM_ANSWER_TIMEOUT (R127). -/
def execClaimAnswerTimeout (k : LinkId) (s : State) : Host.Outcome State Fault Refusal :=
  match (s.link k).claim with
  | some c => .next (s.busEvent fun s => ((s.clockTo c.deadline).timeOutClaim k).countTimeout k)
  | none => .next s

/-- SYNC_TIMEOUT (R120): counted, a new SYNC, the timer again; nothing on a link that owes no sync (log 45). -/
def execSyncTimeout (k : LinkId) (s : State) : Host.Outcome State Fault Refusal :=
  match (s.link k).syncTimer, (s.link k).syncOwed with
  | some t, true => .next (s.busEvent fun s => ((s.clockTo t).countTimeout k).sendSync k)
  | _, _ => .next s

/-! ### A frame is taken (R117, R119) -/

/-- The sender id is acceptable on the link (R117); a SYNC's always is. -/
def State.accepts (s : State) (k : LinkId) (sender : SectorId) (isSync : Bool) : Bool :=
  isSync || (match (s.link k).neighbour with
    | some x => decide (x = sender)
    | none => decide (sender ≠ s.sectorId))

/-- A valid frame: the sender is adopted (R117), the timeout count is 0, and DOWN ends (R119). -/
def State.greet (s : State) (k : LinkId) (sender : SectorId) : State :=
  let down := decide ((s.link k).state = .down)
  let s := s.updLink k fun l => { l with neighbour := some sender, timeouts := 0 }
  if down then s.enterLink k (if (s.link k).syncOwed then .unsynced else .up) else s

/-- A border frame is received: discarded while the part is held or in LOAD, or from a sender that is not acceptable (R117);
otherwise taken by `f`. -/
def State.borderEvent (s : State) (k : LinkId) (sender : SectorId) (isSync : Bool) (f : State → State) : State :=
  if decide (s.phase = .load) || !s.accepts k sender isSync then s
  else s.busEvent fun s => f (s.greet k sender)

/-! ### CLAIM (R38, R129) -/

/-- The cells that a frame of link `k` names (R26). -/
def State.cellsOn (s : State) (k : LinkId) (cells : List Nat) : List CellId := cells.filterMap (s.cellOn k)

/-- A number names a cell that link `k`'s neighbour may have (R38). -/
def State.lendable (s : State) (k : LinkId) (i : Nat) : Bool :=
  match s.cellOn k i with
  | some c =>
    (s.borderOf c.val).any (fun e => decide (e.home = .here)) && decide ((s.cell c).owner = .free) &&
      decide ((s.cell c).shadow = 0)
  | none => false

/-- A number names a cell that is BLOCKED of link `k` (R38). -/
def State.blockedOn (s : State) (k : LinkId) (i : Nat) : Bool :=
  match s.cellOn k i with
  | some c => decide ((s.cell c).owner = .blocked k)
  | none => false

/-- Every cell of a list becomes LENT (R38, R39). -/
def State.lend (s : State) (k : LinkId) (l : List CellId) : State :=
  s.updCells fun i r => if named i l then { r with owner := .lent k } else r

/-- A CLAIM is answered (R38, R129). -/
def State.takeClaim (s : State) (k : LinkId) (number : Byte) (cells : List Nat) : State :=
  if ¬ cells.Nodup then s.send k (.refuse number .busy)
  else if cells.all (s.lendable k) then (s.lend k (s.cellsOn k cells)).send k (.grant number)
  else s.send k (.refuse number (if cells.any (s.blockedOn k) then .blocked else .busy))

/-- CLAIM: of 1 to 32 cells, or discarded (R117). -/
def execClaim (k : LinkId) (sender : SectorId) (number : Byte) (cells : List Nat) (s : State) :
    Host.Outcome State Fault Refusal :=
  if 1 ≤ cells.length ∧ cells.length ≤ 32 then .next (s.borderEvent k sender false fun s => s.takeClaim k number cells)
  else .next s

/-! ### GRANT (R32, R124, R125, R128) -/

/-- The cells of a list that are AWAY of link `k`. -/
def State.stillAway (s : State) (k : LinkId) (l : List CellId) : List CellId :=
  l.filter fun c => decide ((s.cell c).owner = .away k)

/-- A sweep cell of a granted claim passes the tests of R32: returned and still AWAY (log 9), or still PENDING or HELD of the
slot; and with no shadow from others. -/
def State.claimPasses (s : State) (k : LinkId) (c : Claim) (x : CellId) : Bool :=
  (if x ∈ c.cells then decide ((s.cell x).owner = .away k)
   else decide ((s.cell x).owner = .pending c.slot) || decide ((s.cell x).owner = .held c.slot)) &&
  decide (s.shadowFromOthers c.slot x = 0)

/-- A GRANT for the outstanding claim (R125; R124 for a withdrawn one): the segment it was made for is its slot's first ungranted
one as long as the claim is not withdrawn (R73, R124). -/
def State.takeGrant (s : State) (k : LinkId) (c : Claim) : State :=
  let refuse (s : State) : State := (((s.sendRelease k (s.stillAway k c.cells)).endClaim k c .released).backOff c).causeScan
  if c.withdrawn then refuse s
  else
    match s.firstUngranted c.slot with
    | none => refuse s
    | some (id, g) =>
      if decide (id = c.seg) && decide (s.sector = .run) && (s.sweepOf c.slot g).all (s.claimPasses k c) then
        ((s.endClaim k c .granted).grantSeg c.slot c.seg g).causeScan
      else refuse s

/-- A GRANT that is too late (R128): the history's cells that are AWAY here and not claimed now are released. -/
def State.lateGrant (s : State) (k : LinkId) (number : Byte) : State :=
  let out := ((s.link k).claim.map (·.cells)).getD []
  let names := (s.link k).history.get number.toFin
  let cells := (s.border.filter fun e => decide (e.link = k) && decide (e.theirs ∈ names)).map (·.cell)
  s.sendRelease k ((s.stillAway k cells).filter fun c => decide (c ∉ out))

/-- GRANT. -/
def execGrant (k : LinkId) (sender : SectorId) (number : Byte) (s : State) : Host.Outcome State Fault Refusal :=
  .next (s.borderEvent k sender false fun s =>
    match (s.link k).claim with
    | some c => if c.number = number then s.takeGrant k c else s.lateGrant k number
    | none => s.lateGrant k number)

/-! ### REFUSE (R124, R126) -/

/-- How a claim ended by a REFUSE. -/
def refusedEnd : RefuseReason → ClaimEnd
  | .busy => .refusedBusy
  | .blocked => .refusedBlocked

/-- REFUSE. -/
def execRefuse (k : LinkId) (sender : SectorId) (number : Byte) (reason : RefuseReason) (s : State) :
    Host.Outcome State Fault Refusal :=
  .next (s.borderEvent k sender false fun s =>
    match (s.link k).claim with
    | some c => if c.number = number then ((s.endClaim k c (refusedEnd reason)).backOff c).causeScan else s
    | none => s)

/-! ### RELEASE (R39, R130) -/

/-- Named LENT cells become FREE, and the backoffs on the link end (R39, R130). -/
def State.takeRelease (s : State) (k : LinkId) (cells : List Nat) : State :=
  let l := s.cellsOn k cells
  let waiting (e : QEntry) : Bool := e.backoff.isSome && decide (e.claimLink = some k)
  let any := s.queue.any waiting
  let s := s.updCells fun i r => if named i l ∧ r.owner = .lent k then { r with owner := .free } else r
  let s := { s with queue := s.queue.map fun e => if waiting e then { e with backoff := none } else e }
  if any then s.causeScan else s

/-- RELEASE: of 1 to 256 cells, or discarded (R117). -/
def execRelease (k : LinkId) (sender : SectorId) (cells : List Nat) (s : State) : Host.Outcome State Fault Refusal :=
  if 1 ≤ cells.length ∧ cells.length ≤ 256 then .next (s.borderEvent k sender false fun s => s.takeRelease k cells)
  else .next s

/-! ### SYNC (R121) -/

/-- The lowest retired slot whose entry's footprint has a cell (R39, R121). -/
def State.retiredAt (s : State) (i : Nat) : Option SlotId :=
  allSlots.find? fun n => match s.retired.get n with
    | some e => named i e.cells
    | none => false

/-- AWAY cells of link `k` in retired footprints, those claimed now apart, become HELD (R121). -/
def State.holdRetired (s : State) (k : LinkId) : State :=
  let out := ((s.link k).claim.map (·.cells)).getD []
  s.updCells fun i r =>
    if r.owner = .away k ∧ named i out = false then
      match s.retiredAt i with
      | some n => { r with owner := .held n }
      | none => r
    else r

/-- The neighbour's numbers for the cells of link `k` whose owner passes `p` and whose home is `h`. -/
def State.listFor (s : State) (k : LinkId) (h : Home) (p : Owner → Bool) : List CellId :=
  (s.border.filter fun e => decide (e.link = k) && decide (e.home = h) && p (s.cell e.cell).owner).map (·.theirs)

/-- A cell that this side has on loan. -/
def Owner.borrowed : Owner → Bool
  | .held _ => true
  | .orphan _ => true
  | _ => false

/-- A SYNC_REPORT is made (R121). -/
def State.report (s : State) (k : LinkId) : State :=
  let s := s.holdRetired k
  s.send k (.syncReport (s.listFor k .here fun o => decide (o = .lent k)) (s.listFor k .remote Owner.borrowed))

/-- SYNC: the report, then the end of an outstanding claim (R121). -/
def execSync (k : LinkId) (sender : SectorId) (s : State) : Host.Outcome State Fault Refusal :=
  .next (s.borderEvent k sender true fun s => (s.report k).timeOutClaim k)

/-! ### SYNC_REPORT (R39, R122) -/

/-- The BLOCKED cells of link `k`: LENT when the neighbour holds them, else FREE (R39). -/
def State.applyBorrowed (s : State) (k : LinkId) (l : List CellId) : State :=
  s.updCells fun i r =>
    if r.owner = .blocked k then { r with owner := if named i l then .lent k else .free } else r

/-- The AWAY cells named as lent: to a retired slot, ORPHAN, or AWAY with a RELEASE (R39). -/
def State.applyLent (s : State) (k : LinkId) (l : List CellId) : State :=
  let t := s.updCells fun i r =>
    if named i l ∧ r.owner = .away k then
      match s.retiredAt i with
      | some n => { r with owner := .held n }
      | none => if r.shadow = 0 then r else { r with owner := .orphan k }
    else r
  t.sendRelease k (t.stillAway k ((s.border.map (·.cell)).filter fun c => decide (c ∈ l)))

/-- A SYNC_REPORT is applied (R122). -/
def State.takeReport (s : State) (k : LinkId) (lent borrowed : List Nat) : State :=
  let s := s.updLink k fun l => { l with syncOwed := false, syncTimer := none }
  let s := if (s.link k).state = .up then s else s.enterLink k .up
  (s.applyBorrowed k (s.cellsOn k borrowed)).applyLent k (s.cellsOn k lent)

/-- SYNC_REPORT: of lists of at most 256 cells, or discarded (R117). -/
def execSyncReport (k : LinkId) (sender : SectorId) (lent borrowed : List Nat) (s : State) :
    Host.Outcome State Fault Refusal :=
  if lent.length ≤ 256 ∧ borrowed.length ≤ 256 then
    .next (s.borderEvent k sender false fun s => s.takeReport k lent borrowed)
  else .next s

/-- A frame whose check fails or whose form is wrong is discarded without answer (R117). -/
def execBorderFrameDiscarded (_ : LinkId) (s : State) : Host.Outcome State Fault Refusal := .next s

/-! ### RECLAIM_BORDER (R40, R132) -/

/-- A cell of a reclaimed link (R40). -/
def Owner.reclaimed (k : LinkId) : Owner → Owner
  | .blocked j => if j = k then .free else .blocked j
  | .lent j => if j = k then .free else .lent j
  | .orphan j => if j = k then .away j else .orphan j
  | o => o

/-- RECLAIM_BORDER (R132). -/
def reclaimBorderRule (link : Nat) (s : State) : Reply :=
  match inRange 4 link with
  | none => s.reply .badArg
  | some k =>
    if (s.link k).state = .down then
      (((s.updCells fun _ r => { r with owner := r.owner.reclaimed k }).updLink k fun l =>
        { l with neighbour := none }).causeScan).reply .ok
    else s.reply .linkUp

def execReclaimBorder (p : PortId) (seq link : Nat) (s : State) : Host.Outcome State Fault Refusal :=
  .next (s.request p .reclaimBorder seq (reclaimBorderRule link))

/-! ### QUERY_LINK and QUERY_CELL -/

/-- The cells whose owner passes `p`. -/
def State.countCells (s : State) (p : Owner → Bool) : Nat := (s.cells.items.filter fun r => p r.owner).length

/-- A link as it is read (R133). -/
def State.linkView (s : State) (k : LinkId) : LinkView :=
  let l := s.link k
  { state := l.state, syncOwed := l.syncOwed, timeouts := l.timeouts, neighbour := l.neighbour, claim := l.claim,
    msLeft := match l.claim with
      | some c => (c.deadline - s.now) / 1000
      | none => 0
    lastEnd := l.lastEnd,
    counts := [s.countCells fun o => decide (o = .blocked k), s.countCells fun o => decide (o = .lent k),
      s.countCells fun o => decide (o = .away k), s.countCells fun o => decide (o = .orphan k),
      (s.listFor k .remote fun o => match o with
        | .held _ => true
        | _ => false).length] }

/-- QUERY_LINK (R133). -/
def queryLinkRule (link : Nat) (s : State) : Reply :=
  match inRange 4 link with
  | none => s.reply .badArg
  | some k => s.replyWith (.link (s.linkView k))

def execQueryLink (p : PortId) (seq link : Nat) (s : State) : Host.Outcome State Fault Refusal :=
  .next (s.request p .queryLink seq (queryLinkRule link))

/-- QUERY_CELL (R43). -/
def queryCellRule (cell : Nat) (s : State) : Reply :=
  match inRange 2048 cell with
  | none => s.reply .badArg
  | some c =>
    s.replyWith (.cell { owner := (s.cell c).owner, shadow := (s.cell c).shadow, fixed := decide (c ∈ s.fixed),
                         border := s.borderOf c.val })

def execQueryCell (p : PortId) (seq cell : Nat) (s : State) : Host.Outcome State Fault Refusal :=
  .next (s.request p .queryCell seq (queryCellRule cell))

end Sys2Proof.Machine
end

