-- ==== Sys2Proof/Machine/Branches.lean ====
section
/-! DEFINITION. The SERVICE requests to the Branch Controllers: TAKE_BRANCH, GIVE_BRANCH, DIRECT_FRAME, CENSUS and QUERY_BRANCH
(R110 to R114). -/

namespace Sys2Proof.Machine

/-! ### TAKE_BRANCH and GIVE_BRANCH (R111, R113) -/

/-- An order that a take moves to the backlog (R111): its segment GRANTED, not a continuation. -/
def State.setsBack (s : State) (e : Entry) : Option Order :=
  match e with
  | .order o => if !o.continuation && !s.orderActive o then some o else none
  | _ => none

/-- The entry is a call of the idle sweep. -/
def Entry.idle : Entry → Bool
  | .status _ .idle => true
  | _ => false

/-- The take is accepted (R111). The idle sweep pauses: an idle call that waits in the queue leaves it, its drop still due
(R107, R112; log 51). -/
def State.startTake (s : State) (b : BranchId) : State :=
  let moved := (s.branch b).queue.filterMap s.setsBack
  (s.updBranch b fun br =>
    { br with
      access := .taking
      queue := br.queue.filter fun e => (s.setsBack e).isNone && !e.idle
      backlog := moved ++ br.backlog }).arbitrate b

/-- TAKE_BRANCH (R111). -/
def takeBranchRule (branch : Nat) (s : State) : Reply :=
  match inRange 4 branch with
  | none => s.reply .badArg
  | some b =>
    if (s.branch b).access ≠ .own then s.reply .taken
    else if s.census = .service then s.reply .taken
    else if s.phase ≠ .done then s.reply .taken
    else (s.startTake b).deferred

def execTakeBranch (p : PortId) (seq branch : Nat) (s : State) : Host.Outcome State Fault Refusal :=
  .next (s.request p .takeBranch seq (takeBranchRule branch))

/-- GIVE_BRANCH (R113). -/
def giveBranchRule (branch : Nat) (s : State) : Reply :=
  match inRange 4 branch with
  | none => s.reply .badArg
  | some b =>
    if (s.branch b).access = .taken then
      (((s.updBranch b fun br => { br with access := .own }).arbitrate b).causeScan).reply .ok
    else s.reply .notTaken

def execGiveBranch (p : PortId) (seq branch : Nat) (s : State) : Host.Outcome State Fault Refusal :=
  .next (s.request p .giveBranch seq (giveBranchRule branch))

/-! ### DIRECT_FRAME (R112) -/

/-- The operands of a DIRECT_FRAME in range (R112). -/
def readDirect (branch drop len : Nat) : Option (BranchId × DropId) :=
  match inRange 4 branch, inRange 24 drop with
  | some b, some d => if 1 ≤ len ∧ len ≤ 32 then some (b, d) else none
  | _, _ => none

/-- DIRECT_FRAME (R112). -/
def directFrameRule (branch drop : Nat) (bytes : List Byte) (s : State) : Reply :=
  match readDirect branch drop bytes.length with
  | none => s.reply .badArg
  | some (b, d) =>
    if (s.branch b).access = .taken then
      ((s.updBranch b fun br => { br with direct := some (d, bytes) }).arbitrate b).deferred
    else s.reply .notTaken

def execDirectFrame (p : PortId) (seq branch drop : Nat) (bytes : List Byte) (s : State) : Host.Outcome State Fault Refusal :=
  .next (s.request p .directFrame seq (directFrameRule branch drop bytes))

/-! ### CENSUS (R110) -/

/-- A slot in MOVING or DWELLING. -/
def Slot.working (sl : Slot) : Bool := decide (sl.state = .moving) || decide (sl.state = .dwelling)

/-- CENSUS (R110). -/
def censusRule (s : State) : Reply :=
  if s.slots.items.any Slot.working then s.reply .busy
  else if s.branches.items.any fun b => decide (b.access ≠ .own) then s.reply .taken
  else if s.census ≠ .none then s.reply .busy
  else if s.phase ≠ .done then s.reply .busy
  else (s.beginCensus .service).runBuses.deferred

def execCensus (p : PortId) (seq : Nat) (s : State) : Host.Outcome State Fault Refusal :=
  .next (s.request p .census seq censusRule)

/-! ### QUERY_BRANCH (R114) -/

/-- The kind of a call by its number (section 12.6). -/
def Entry.kind : Entry → Nat
  | .order _ => 1
  | .status _ _ => 2
  | .roll _ => 4
  | .direct _ _ => 5

/-- The drop of a call. -/
def Entry.drop : Entry → DropId
  | .order o => o.drop
  | .status d _ => d
  | .roll d => d
  | .direct d _ => d

/-- A queue entry as it is read. -/
def State.entryView (s : State) (b : BranchId) (e : Entry) : EntryView :=
  match e with
  | .order o =>
    { kind := e.kind, drop := some e.drop, slot := some (slotOf b o.drop), continuation := o.continuation, ready := s.ready b e }
  | _ => { kind := e.kind, drop := some e.drop, slot := none, continuation := false, ready := false }

/-- The halt place as it is read. -/
def haltView : EntryView := { kind := 3, drop := none, slot := none, continuation := false, ready := false }

/-- The number of the attempt that a transaction makes: 1 to 3. -/
def Transaction.attempt (t : Transaction) : Nat :=
  match t.call with
  | .halt => 1
  | .entry (.direct _ _) => 1
  | .entry _ => 3 - t.left

/-- The transaction in progress as it is read. -/
def Transaction.view (t : Transaction) : Nat × Option DropId × Nat :=
  match t.call with
  | .halt => (3, none, t.attempt)
  | .entry e => (e.kind, some e.drop, t.attempt)

/-- A poll-list entry as it is read. -/
def State.pollView (s : State) (b : BranchId) (e : PollEntry) : PollView :=
  { drop := e.drop, slot := slotOf b e.drop, tag := (s.seg e.seg).map (·.tag), haltMark := e.haltMark,
    finalMark := e.finalMark, msLeft := (s.stallAt e - s.now) / 1000 }

/-- A branch as it is read (R114). -/
def State.branchView (s : State) (b : BranchId) : BranchView :=
  let br := s.branch b
  { access := br.access, halting := br.halting,
    entries := (if br.haltPlace then [haltView] else []) ++ br.queue.map (s.entryView b),
    backlog := br.backlog.map fun o => slotOf b o.drop,
    bus := br.bus.map Transaction.view,
    poll := br.poll.map (s.pollView b),
    drops := br.drops.items.map fun x => (x.energized, x.lastDone.map fun t => (s.now - t) / 1000) }

/-- QUERY_BRANCH (R114). -/
def queryBranchRule (branch : Nat) (s : State) : Reply :=
  match inRange 4 branch with
  | none => s.reply .badArg
  | some b => s.replyWith (.branch (s.branchView b))

def execQueryBranch (p : PortId) (seq branch : Nat) (s : State) : Host.Outcome State Fault Refusal :=
  .next (s.request p .queryBranch seq (queryBranchRule branch))

end Sys2Proof.Machine
end

