-- ==== Sys2Proof/Machine/Metrology.lean ====
section
/-! DEFINITION. Metrology corrections and position streaming: MEASURE, SET_FOOTPRINT, LOAD_TRIM, STREAM_POSITIONS, STREAM_ARM and
STREAM_STOP (R134 to R145). -/

namespace Sys2Proof.Machine

/-! ### MEASURE (R134, R135) -/

/-- A slot whose queue entry has its pending-claim mark set. -/
def State.claimPending (s : State) (n : SlotId) : Bool := (s.entry n).any (·.pendingClaim)

/-- A footprint cell passes the MEASURE column of R28. -/
def State.measurable (s : State) (n : SlotId) (c : CellId) : Bool :=
  match (s.cell c).owner with
  | .free => decide (s.shadowFromOthers n c = 0)
  | .held m => decide (m = n)
  | .orphan _ => true
  | _ => false

/-- A resting slot is PARKED; a WAITING slot stays WAITING (R135, R137). -/
def SlotState.parkedBy : SlotState → SlotState
  | .unknown => .parked
  | .stranded => .parked
  | st => st

/-- The robot of slot `n` is put where it is said to stand, its held set exactly the footprint (R37, R135, R137). -/
def State.placeAt (s : State) (n : SlotId) (t : Theta) (f : Phi) (cells : List CellId) : State :=
  let s := (((s.moveStand n (.footprint t f cells)).takeCells n cells).settleCells n).updSlot n
    fun sl => { sl with state := sl.state.parkedBy }
  let s := s.judge n
  if s.inQueue n then s.causeScan else s

/-- The operands of a MEASURE in range (R134). -/
def readMeasure (slot theta phi : Nat) (cells : List Nat) : Option (SlotId × RetiredEntry) :=
  match inRange 96 slot, readRetired { theta := theta, phi := phi, cells := cells } with
  | some n, some e => some (n, e)
  | _, _ => none

/-- MEASURE (R134, R135). -/
def measureRule (slot theta phi : Nat) (cells : List Nat) (s : State) : Reply :=
  match readMeasure slot theta phi cells with
  | none => s.reply .badArg
  | some (n, e) =>
    match (s.slot n).state with
    | .absent => s.reply .absent
    | .retired => s.reply .retired
    | .faulted => s.reply .faulted
    | .moving => s.reply .busy
    | .dwelling => s.reply .busy
    | _ =>
      if s.claimPending n then s.reply .busy
      else if e.cells.all (· ∈ (s.slot n).patrol) && e.cells.all (s.measurable n) then
        ((s.placeAt n e.theta e.phi e.cells).settleEvent s).reply .ok
      else s.reply .conflict

def execMeasure (p : PortId) (seq slot theta phi : Nat) (cells : List Nat) (s : State) : Host.Outcome State Fault Refusal :=
  .next (s.request p .measure seq (measureRule slot theta phi cells))

/-! ### SET_FOOTPRINT (R137) -/

/-- A cell lies in slot `n`'s held set. -/
def State.holds (s : State) (n : SlotId) (c : CellId) : Bool := decide ((s.cell c).owner = .held n)

/-- A scan is started when `b` holds. -/
def State.scanWhen (s : State) (b : Bool) : State := if b then s.causeScan else s

/-- SET_FOOTPRINT (R137); the event starts a scan when a cell was released, whatever its owner after. -/
def setFootprintRule (slot : Nat) (cells : List Nat) (s : State) : Reply :=
  match inRange 96 slot, cellList 1 8 cells with
  | some n, some c =>
    match (s.slot n).state with
    | .absent => s.reply .absent
    | .retired => s.reply .retired
    | .faulted => s.reply .faulted
    | .moving => s.reply .state
    | .dwelling => s.reply .state
    | _ =>
      match (s.slot n).stand.pos with
      | none => s.reply .state
      | some (t, f) =>
        if s.claimPending n then s.reply .busy
        else if c.all (s.holds n) then
          ((s.placeAt n t f c).scanWhen ((s.slot n).stand.cells.any fun x => s.holds n x && decide (x ∉ c))
            |>.settleEvent s).reply .ok
        else s.reply .notSubset
  | _, _ => s.reply .badArg

def execSetFootprint (p : PortId) (seq slot : Nat) (cells : List Nat) (s : State) : Host.Outcome State Fault Refusal :=
  .next (s.request p .setFootprint seq (setFootprintRule slot cells))

/-! ### LOAD_TRIM (R138, R139) -/

/-- An accepted trim (R139): CHAINED at the tail of its slot's chain, the slot judged for the queue. -/
def State.addTrim (s : State) (n : SlotId) (body : SegBody) (tag : Nat) (id : SegId) (rest : List SegId) : State :=
  let g : Segment := { slot := n, body := body, tag := tag, batch := none, state := .chained, continuation := false }
  (((s.takeRecord id rest g).updSlot n fun sl => { sl with chain := sl.chain ++ [id] })).judge n

/-- LOAD_TRIM (R138). -/
def loadTrimRule (d : Descriptor) (s : State) : Reply :=
  match Descriptor.read d with
  | none => s.reply .badArg
  | some (n, body) =>
    if body.isTrim = false then s.reply .badArg
    else
      match (s.slot n).state with
      | .absent => s.reply .absent
      | .retired => s.reply .retired
      | .faulted => s.reply .faulted
      | .unknown => s.reply .state
      | _ =>
        if s.keepout body.sweep then s.reply .keepout
        else if s.twoLinks body.sweep then s.reply .twoLinks
        else
          match s.free with
          | [] => s.reply .poolEmpty
          | id :: rest =>
            if chainRoom ≤ (s.slot n).chain.length then s.reply .chainFull
            else (s.addTrim n body d.tag id rest).replyWith (.segment id)

def execLoadTrim (p : PortId) (seq : Nat) (d : Descriptor) (s : State) : Host.Outcome State Fault Refusal :=
  .next (s.request p .loadTrim seq (loadTrimRule d))

/-! ### The position stream (R142, R144, R145) -/

/-- STREAM_POSITIONS (R142). -/
def streamPositionsRule (first count : Nat) (s : State) : Reply :=
  match streamRange first count with
  | none => s.reply .badArg
  | some r =>
    if s.stream.isSome then s.reply .streaming
    else State.reply { s with stream := some { first := r.first, count := r.count, sent := 0 } } .ok

def execStreamPositions (p : PortId) (seq first count : Nat) (s : State) : Host.Outcome State Fault Refusal :=
  .next (s.request p .streamPositions seq (streamPositionsRule first count))

/-- STREAM_ARM (R145). -/
def streamArmRule (first count : Nat) (s : State) : Reply :=
  match streamRange first count with
  | none => s.reply .badArg
  | some r => State.reply { s with armed := some r } .ok

def execStreamArm (p : PortId) (seq first count : Nat) (s : State) : Host.Outcome State Fault Refusal :=
  .next (s.request p .streamArm seq (streamArmRule first count))

/-- STREAM_STOP (R144). -/
def streamStopRule (s : State) : Reply :=
  let t := { s with armed := none }
  match s.stream with
  | some r => (State.raise { t with stream := none } (.streamEnd r.sent true)).reply .ok
  | none => t.reply .ok

def execStreamStop (p : PortId) (seq : Nat) (s : State) : Host.Outcome State Fault Refusal :=
  .next (s.request p .streamStop seq streamStopRule)

end Sys2Proof.Machine
end

