-- ==== Sys2Proof/Machine/Senses.lean ====
section
/-! DEFINITION. The requests to the Sense Monitor: READ_SENSE, CLEAR_CHANGE and SET_SENSE_WATCH (R149 to R151). -/

namespace Sys2Proof.Machine

/-- The longest age a READ_SENSE answer gives, in ms (section 12.3). -/
def longestAge : Nat := 65535

/-- The present senses with their age in ms (R149). -/
def SenseRec.aged (r : SenseRec) (now : Nat) : Option (Senses × Nat) :=
  r.present.map fun x => (x.1, min longestAge ((now - x.2) / 1000))

/-- READ_SENSE (R149). -/
def readSenseRule (slot : Nat) (s : State) : Reply :=
  match inRange 96 slot with
  | none => s.reply .badArg
  | some n =>
    let r := s.sense n
    let f : AnswerFields := .senses (r.aged s.now) r.watch r.changed
    match r.present with
    | some (x, _) => (s.updSense n fun r => { r with snapshot := some x, changed := false }).replyWith f
    | none => s.replyWith f

def execReadSense (p : PortId) (seq slot : Nat) (s : State) : Host.Outcome State Fault Refusal :=
  .next (s.request p .readSense seq (readSenseRule slot))

/-- CLEAR_CHANGE (R150). -/
def clearChangeRule (slot : Nat) (s : State) : Reply :=
  match inRange 96 slot with
  | none => s.reply .badArg
  | some n => (s.updSense n fun r => { r with changed := false }).replyWith (.changedBefore (s.sense n).changed)

def execClearChange (p : PortId) (seq slot : Nat) (s : State) : Host.Outcome State Fault Refusal :=
  .next (s.request p .clearChange seq (clearChangeRule slot))

/-- SET_SENSE_WATCH (R151). -/
def setSenseWatchRule (slot : Nat) (watch : Byte) (s : State) : Reply :=
  match inRange 96 slot, readWatch watch with
  | some n, some w => (s.updSense n fun r => { r with watch := w }).reply .ok
  | _, _ => s.reply .badArg

def execSetSenseWatch (p : PortId) (seq slot : Nat) (watch : Byte) (s : State) : Host.Outcome State Fault Refusal :=
  .next (s.request p .setSenseWatch seq (setSenseWatchRule slot watch))

end Sys2Proof.Machine
end

