-- ==== Sys2Proof/Machine/Slots.lean ====
section
/-! DEFINITION. The requests to the Grant Unit and the Positioner Table: HOLD, RESUME, STOP, QUERY_QUEUE (R69, R70, R72, R89),
QUERY_SLOT, CLEAR_FAULT, RETIRE, UNRETIRE (R18, R20, R21, R23) and STORE_RETIRED (R186). -/

namespace Sys2Proof.Machine

/-! ### HOLD, RESUME, STOP -/

/-- HOLD (R69). -/
def holdRule (s : State) : Reply :=
  if s.sector = .run then (s.enterHold.finish s).reply .ok else s.reply .ok

def execHold (p : PortId) (seq : Nat) (s : State) : Host.Outcome State Fault Refusal :=
  .next (s.request p .hold seq holdRule)

/-- RESUME (R70). -/
def resumeRule (s : State) : Reply :=
  if s.sector = .unconfigured then s.reply .unconfigured
  else if s.sector = .starting ∨ s.sector = .stopping then s.reply .state
  else if s.stopLine then s.reply .stopActive
  else if s.timebase.isNone then s.reply .noTimebase
  else if s.sector = .run then s.reply .ok
  else (s.enterSector .run).causeScan.reply .ok

def execResume (p : PortId) (seq : Nat) (s : State) : Host.Outcome State Fault Refusal :=
  .next (s.request p .resume seq resumeRule)

/-- STOP (R72, R155). -/
def stopRule (s : State) : Reply := (s.takeStop.finish s).reply .ok

def execStop (p : PortId) (seq : Nat) (s : State) : Host.Outcome State Fault Refusal :=
  .next (s.request p .stop seq stopRule)

/-! ### QUERY_QUEUE (R89) -/

/-- A queue entry as it is read. -/
def QEntry.view (e : QEntry) : QueueView :=
  { slot := e.slot, passOver := e.passOver, barrier := e.barrier, pendingClaim := e.pendingClaim,
    backoff := e.backoff.isSome, claimLink := e.claimLink }

/-- QUERY_QUEUE (R89). -/
def queryQueueRule (s : State) : Reply := s.replyWith (.queue s.sector s.stopLine (s.queue.map QEntry.view))

def execQueryQueue (p : PortId) (seq : Nat) (s : State) : Host.Outcome State Fault Refusal :=
  .next (s.request p .queryQueue seq queryQueueRule)

/-! ### QUERY_SLOT (R6, R23) -/

/-- The rest state of a slot record; R6 gives none to an ABSENT or RETIRED slot (log 19). -/
def Slot.restState (sl : Slot) : Option SlotState :=
  match sl.state with
  | .absent => none
  | .retired => none
  | _ => some sl.stand.rest

/-- A slot record as it is read (R23). -/
def State.slotView (s : State) (n : SlotId) : SlotView :=
  let sl := s.slot n
  { state := sl.state, rest := sl.restState, populated := sl.populated, stand := sl.stand, inQueue := s.inQueue n,
    fault := sl.fault, chainLength := sl.chain.length, granted := (s.grantedSegs n).map fun x => (x.2.tag, x.2.state) }

/-- QUERY_SLOT (R23). -/
def querySlotRule (slot : Nat) (s : State) : Reply :=
  match inRange 96 slot with
  | none => s.reply .badArg
  | some n => s.replyWith (.slot (s.slotView n))

def execQuerySlot (p : PortId) (seq slot : Nat) (s : State) : Host.Outcome State Fault Refusal :=
  .next (s.request p .querySlot seq (querySlotRule slot))

/-! ### CLEAR_FAULT, RETIRE, UNRETIRE -/

/-- CLEAR_FAULT (R18). -/
def clearFaultRule (slot : Nat) (s : State) : Reply :=
  match inRange 96 slot with
  | none => s.reply .badArg
  | some n =>
    if (s.slot n).state = .absent then s.reply .absent
    else if (s.slot n).state = .faulted then
      ((s.updSlot n fun sl => { sl with fault := none, state := sl.stand.rest }).judge n).reply .ok
    else s.reply .state

def execClearFault (p : PortId) (seq slot : Nat) (s : State) : Host.Outcome State Fault Refusal :=
  .next (s.request p .clearFault seq (clearFaultRule slot))

/-- A slot becomes RETIRED where it stands, with its entry in the working retired set (R20). -/
def State.retireAt (s : State) (n : SlotId) (t : Theta) (f : Phi) (cells : List CellId) : State :=
  State.updSlot { s with retired := s.retired.set n (some { theta := t, phi := f, cells := cells }) } n
    fun sl => { sl with state := .retired, fault := none }

/-- RETIRE (R20). -/
def retireRule (slot : Nat) (s : State) : Reply :=
  match inRange 96 slot with
  | none => s.reply .badArg
  | some n =>
    let sl := s.slot n
    if sl.state = .absent then s.reply .absent
    else if sl.state = .retired then s.reply .retired
    else if sl.chain ≠ [] then s.reply .busy
    else
      match sl.state, sl.stand with
      | .faulted, .footprint t f c => (s.retireAt n t f c).reply .ok
      | .faulted, _ => s.reply .faulted
      | .parked, .footprint t f c => (s.retireAt n t f c).reply .ok
      | _, _ => s.reply .state

def execRetire (p : PortId) (seq slot : Nat) (s : State) : Host.Outcome State Fault Refusal :=
  .next (s.request p .retire seq (retireRule slot))

/-- UNRETIRE (R21); the slot's drop becomes sweepable, so its branch's arbiter runs (R107; log 33), in LOAD too, where the idle call then
stands before the branch's halt (log 62). -/
def unretireRule (slot : Nat) (s : State) : Reply :=
  match inRange 96 slot with
  | none => s.reply .badArg
  | some n =>
    if (s.slot n).state = .absent then s.reply .absent
    else if (s.slot n).state = .retired then
      ((State.updSlot { s with retired := s.retired.set n none } n fun sl => { sl with state := .parked }).arbitrate
        (branchOf n)).reply .ok
    else s.reply .state

def execUnretire (p : PortId) (seq slot : Nat) (s : State) : Host.Outcome State Fault Refusal :=
  .next (s.request p .unretire seq (unretireRule slot))

/-! ### STORE_RETIRED (R186) -/

/-- The image is written and its check computed anew (R182, R185). -/
def State.writeImage (s : State) (i : Image) : State := { s with store := { image := i, check := Config.storeCheck i } }

/-- The places of a table that hold something. -/
def countHeld {α : Type} {n : Nat} (t : Table n (Option α)) : Nat := (t.items.filter Option.isSome).length

/-- STORE_RETIRED (R184, R186). -/
def storeRetiredRule (s : State) : Reply :=
  if s.sector = .unconfigured then s.reply .unconfigured
  else (s.writeImage { s.store.image with retired := s.retired }).replyWith (.stored (countHeld s.retired))

def execStoreRetired (p : PortId) (seq : Nat) (s : State) : Host.Outcome State Fault Refusal :=
  .next (s.request p .storeRetired seq storeRetiredRule)

end Sys2Proof.Machine
end

