-- ==== Sys2Proof/Machine/StoreAccess.lean ====
section
/-! DEFINITION. SET_TIMEBASE (R190, R191), the six writes of WRITE_STORE (R182, R185), and the notice requests SUBSCRIBE and
QUERY_NOTICES (R179, R180). -/

namespace Sys2Proof.Machine

/-! ### SET_TIMEBASE -/

/-- SET_TIMEBASE (R191). -/
def setTimebaseRule (us : Nat) (s : State) : Reply :=
  if s.sector = .unconfigured then s.reply .unconfigured
  else if ¬ (10 ≤ us ∧ us ≤ 2000) then s.reply .badArg
  else
    match s.timebase with
    | some t => { state := s, answer := some (.alreadySet, .timebase t) }
    | none => State.reply { s with timebase := some us } .ok

def execSetTimebase (p : PortId) (seq us : Nat) (s : State) : Host.Outcome State Fault Refusal :=
  .next (s.request p .setTimebase seq (setTimebaseRule us))

/-! ### WRITE_STORE -/

/-- Every patrol-set place holds a set (R183). -/
def patrolsPresent (i : Image) : Bool := i.patrol.items.all Option.isSome

/-- The image is valid (R183). -/
def storeValid (st : Store) : Bool := patrolsPresent st.image && decide (st.check = Config.storeCheck st.image)

/-- An accepted write and its answer (R185). -/
def State.written (s : State) (i : Image) : Reply :=
  let s := s.writeImage i
  s.replyWith (.written (countHeld i.patrol) (storeValid s.store))

/-- WRITE_STORE of the sector id. -/
def writeSectorIdRule (id : Nat) (s : State) : Reply :=
  match inRange 64 id with
  | some x => s.written { s.store.image with sectorId := x }
  | none => s.reply .badArg

def execWriteStoreSectorId (p : PortId) (seq id : Nat) (s : State) : Host.Outcome State Fault Refusal :=
  .next (s.request p .writeStore seq (writeSectorIdRule id))

/-- WRITE_STORE of the fixed list. -/
def writeFixedListRule (cells : List Nat) (s : State) : Reply :=
  match cellList 0 128 cells with
  | some l => s.written { s.store.image with fixed := l }
  | none => s.reply .badArg

def execWriteStoreFixedList (p : PortId) (seq : Nat) (cells : List Nat) (s : State) : Host.Outcome State Fault Refusal :=
  .next (s.request p .writeStore seq (writeFixedListRule cells))

/-- A cell is a member of a patrol-set place. -/
def memberOf (c : CellId) (o : Option (List CellId)) : Bool :=
  match o with
  | some l => decide (c ∈ l)
  | none => false

/-- The patrol sets that a cell is a member of (R182). -/
def membership (t : Table 96 (Option (List CellId))) (c : CellId) : Nat := (t.items.filter (memberOf c)).length

/-- The most patrol sets a cell may be a member of (R29, R182). -/
def membershipLimit : Nat := 7

/-- The data of a PATROL_SET: absent for no cell, else 4 to 24 distinct cells (R185, section 12.3). -/
def readPatrol (cells : List Nat) : Option (Option (List CellId)) :=
  match cells with
  | [] => some none
  | _ => (cellList 4 24 cells).map some

/-- WRITE_STORE of a patrol set. -/
def writePatrolSetRule (slot : Nat) (cells : List Nat) (s : State) : Reply :=
  match inRange 96 slot, readPatrol cells with
  | some n, some o =>
    let t := s.store.image.patrol.set n o
    if (o.getD []).all fun c => decide (membership t c ≤ membershipLimit) then s.written { s.store.image with patrol := t }
    else s.reply .badArg
  | _, _ => s.reply .badArg

def execWriteStorePatrolSet (p : PortId) (seq slot : Nat) (cells : List Nat) (s : State) : Host.Outcome State Fault Refusal :=
  .next (s.request p .writeStore seq (writePatrolSetRule slot cells))

/-- Two border entries that may not stand in two places (R182): the same local cell, or the same number of one link. -/
def entryClash (a b : BorderEntry) : Bool :=
  decide (a.cell = b.cell) || (decide (a.link = b.link) && decide (a.theirs = b.theirs))

/-- The data of a BORDER_ENTRY: empty, or an entry in range. -/
def readPlace (entry : Option RawBorder) : Option (Option BorderEntry) :=
  match entry with
  | none => some none
  | some r => (readBorder r).map some

/-- An entry clashes with one that stands in the table. -/
def clashes (t : Table 256 (Option BorderEntry)) (e : BorderEntry) : Bool :=
  t.items.any fun o => match o with
    | some x => entryClash x e
    | none => false

/-- WRITE_STORE of a border entry: judged against the other places. -/
def writeBorderEntryRule (place : Nat) (entry : Option RawBorder) (s : State) : Reply :=
  match inRange 256 place, readPlace entry with
  | some i, some none => s.written { s.store.image with border := s.store.image.border.set i none }
  | some i, some (some e) =>
    if clashes (s.store.image.border.set i none) e then s.reply .badArg
    else s.written { s.store.image with border := s.store.image.border.set i (some e) }
  | _, _ => s.reply .badArg

def execWriteStoreBorderEntry (p : PortId) (seq place : Nat) (entry : Option RawBorder) (s : State) :
    Host.Outcome State Fault Refusal :=
  .next (s.request p .writeStore seq (writeBorderEntryRule place entry))

/-- The data of a RETIRED_ENTRY: empty, or an entry in range. -/
def readRetiredPlace (entry : Option RawRetired) : Option (Option RetiredEntry) :=
  match entry with
  | none => some none
  | some r => (readRetired r).map some

/-- WRITE_STORE of a retired entry. -/
def writeRetiredEntryRule (slot : Nat) (entry : Option RawRetired) (s : State) : Reply :=
  match inRange 96 slot, readRetiredPlace entry with
  | some n, some o => s.written { s.store.image with retired := s.store.image.retired.set n o }
  | _, _ => s.reply .badArg

def execWriteStoreRetiredEntry (p : PortId) (seq slot : Nat) (entry : Option RawRetired) (s : State) :
    Host.Outcome State Fault Refusal :=
  .next (s.request p .writeStore seq (writeRetiredEntryRule slot entry))

/-- WRITE_STORE of CLEAR: every item to its blank value. -/
def writeClearRule (s : State) : Reply := s.written .blank

def execWriteStoreClear (p : PortId) (seq : Nat) (s : State) : Host.Outcome State Fault Refusal :=
  .next (s.request p .writeStore seq writeClearRule)

/-! ### SUBSCRIBE and QUERY_NOTICES -/

/-- A kind newly subscribed with a held-over count has its SUMMARY queued when the queue has room (R179). -/
def Port.summarizeNew (old : Byte) (p : Port) (k : NoticeKind) : Port :=
  if p.subscribed k && !old.getLsbD k.idx.val && decide (p.heldOver.get k.idx ≠ 0) && decide (p.notices.length < noticeRoom) then
    { p with notices := p.notices ++ [.summary k (p.heldOver.get k.idx)], heldOver := p.heldOver.set k.idx 0 }
  else p

/-- The subscription set is replaced (R179). -/
def Port.subscribe (kinds : Byte) (p : Port) : Port :=
  NoticeKind.all.foldl (Port.summarizeNew p.subs) { p with subs := kinds }

/-- SUBSCRIBE (R179). -/
def subscribeRule (p : PortId) (kinds : Byte) (s : State) : Reply := (s.updPort p (Port.subscribe kinds)).reply .ok

def execSubscribe (p : PortId) (seq : Nat) (kinds : Byte) (s : State) : Host.Outcome State Fault Refusal :=
  .next (s.request p .subscribe seq (subscribeRule p kinds))

/-- QUERY_NOTICES (R180). -/
def queryNoticesRule (p : PortId) (s : State) : Reply :=
  let q := s.port p
  match q.role with
  | some r =>
    s.replyWith (.notices { port := p, role := r, subs := q.subs, queued := q.notices.length, heldOver := q.heldOver.items })
  | none => s.deferred

def execQueryNotices (p : PortId) (seq : Nat) (s : State) : Host.Outcome State Fault Refusal :=
  .next (s.request p .queryNotices seq (queryNoticesRule p))

end Sys2Proof.Machine
end

