-- ==== Sys2Proof/Machine/Startup.lean ====
section
/-! DEFINITION. Resets and start-up: the reset event with the working state it builds from the store (R22, R41, R154, R168, R181,
R183, R184, R187), the lines, the end of the LOAD phase (R188), RESET_SECTOR and the end of a sent frame (R170, R173, R187). -/

namespace Sys2Proof.Machine

/-! ### The working state that LOAD builds -/

/-- The role of a strap value (R168). -/
def strapRole : Fin 4 → Option Role
  | 0 => none
  | 1 => some .plan
  | 2 => some .metro
  | 3 => some .service

/-- The role of port `p`: its strap's, unless a lower-numbered port holds it (R168). -/
def portRole (straps : Straps) (p : PortId) : Option Role :=
  if allPorts.any fun q => decide (q < p) && decide (straps.get q = straps.get p) then none else strapRole (straps.get p)

/-- The ports after a reset (R168, R181). -/
def portsAtReset (straps : Straps) : Table 3 Port :=
  ⟨allPorts.map fun p => Port.atReset (portRole straps p), rfl⟩

/-- The border table in the working state: the non-empty places, by local cell (R182). -/
def Image.borderList (i : Image) : List BorderEntry :=
  sortBy (fun a b => decide (a.cell ≤ b.cell)) (i.border.items.filterMap fun e => e)

/-- A cell's starting owner (R41). -/
def startOwner (fixed : List CellId) (border : List BorderEntry) (i : Nat) : Owner :=
  if named i fixed then .fixed
  else
    match border.find? fun e => e.cell.val == i with
    | none => .free
    | some e =>
      match e.home with
      | .here => .blocked e.link
      | .remote => .away e.link

/-- The lowest slot of a retired set whose footprint has a cell. -/
def retiredHolder (retired : Table 96 (Option RetiredEntry)) (i : Nat) : Option SlotId :=
  allSlots.find? fun n => match retired.get n with
    | some e => named i e.cells
    | none => false

/-- A cell's owner after the rebuild (R41): a FREE or BLOCKED cell of a retired footprint is HELD. -/
def rebuiltOwner (fixed : List CellId) (border : List BorderEntry) (retired : Table 96 (Option RetiredEntry)) (i : Nat) :
    Owner :=
  match startOwner fixed border i with
  | .free =>
    match retiredHolder retired i with
    | some n => .held n
    | none => .free
  | .blocked k =>
    match retiredHolder retired i with
    | some n => .held n
    | none => .blocked k
  | o => o

/-- The cell map after the rebuild (R41). -/
def rebuiltCells (fixed : List CellId) (border : List BorderEntry) (retired : Table 96 (Option RetiredEntry)) :
    Table 2048 Cell :=
  (Table.fill 2048 ({ owner := .free, shadow := 0 } : Cell)).mapIdx fun i r =>
    { r with owner := rebuiltOwner fixed border retired i }

/-- A slot record after a reset (R22). -/
def slotAtReset (patrol : Option (List CellId)) (entry : Option RetiredEntry) : Slot :=
  match entry with
  | some e =>
    { populated := true, state := .retired, stand := .footprint e.theta e.phi e.cells, patrol := patrol.getD [],
      fault := none, chain := [] }
  | none => { Slot.atReset with patrol := patrol.getD [] }

/-- The slot records after a reset (R22). -/
def slotsAtReset (i : Image) : Table 96 Slot :=
  ⟨allSlots.map fun n => slotAtReset (i.patrol.get n) (i.retired.get n), by rw [List.length_map]; rfl⟩

/-- A sense record after a reset (R154). -/
def SenseRec.afterReset (powerOn : Bool) (r : SenseRec) : SenseRec :=
  if powerOn then .atPowerOn else { r with present := none, changed := false }

/-- The image that the working state is built from: the stored one when valid, else a blank one (R183). -/
def loadedImage (st : Store) : Image := if storeValid st then st.image else .blank

/-! ### The reset event (R187) -/

/-- The reset event; `powerOn` for power-on, else the RESET line or RESET_SECTOR. The store, the straps, the lines, the clock and
the commands waiting stay. -/
def State.resetEvent (s : State) (powerOn : Bool) : State :=
  let i := loadedImage s.store
  { store := s.store, sectorId := i.sectorId, fixed := i.fixed, border := Image.borderList i, retired := i.retired,
    slots := slotsAtReset i, cells := rebuiltCells i.fixed (Image.borderList i) i.retired,
    pool := .fill 1024 none, free := List.finRange 1024, batches := .fill 4 none, endCount := 0, loadError := false,
    sector := if storeValid s.store then .starting else .unconfigured,
    queue := [], scanDue := false, dwell := .fill 96 none, haltOut := [], startStop := false,
    stopLine := s.stopLine, branches := .fill 4 .atReset, census := .none, links := .fill 4 .atReset,
    senses := s.senses.map (SenseRec.afterReset powerOn), stream := none, armed := none, straps := s.straps, strapReads := s.strapReads,
    ports := portsAtReset s.straps, phase := .load, timebase := none, resetHeld := s.resetHeld, now := s.now,
    pending := s.pending }

/-- POWER_ON: supply and clock have reached their level (R187). The clock starts anew (log 1). The store is as it stood: no command
brings an image whose check disagrees, as supply failing during a write would (R183; log 48). -/
def execPowerOn (straps : Straps) (s : State) : Host.Outcome State Fault Refusal :=
  .next (State.resetEvent { s with straps := straps, now := 0 } true)

/-- RESET_LINE_ASSERT: the part is held, and every frame being sent is cut off (R187). -/
def execResetLineAssert (s : State) : Host.Outcome State Fault Refusal :=
  .next { s with
    resetHeld := true
    ports := s.ports.map fun p => { p with sending := none }
    branches := s.branches.map fun br => { br with bus := none } }

/-- RESET_LINE_RELEASE: the reset event of the RESET line (R187); nothing when the line was not asserted (log 25). -/
def execResetLineRelease (straps : Straps) (s : State) : Host.Outcome State Fault Refusal :=
  if s.resetHeld then .next (State.resetEvent { s with straps := straps, resetHeld := false } false) else .next s

/-! ### The STOP line (R160) -/

/-- STOP_LINE_ASSERT. -/
def execStopLineAssert (s : State) : Host.Outcome State Fault Refusal :=
  .next (State.event { s with stopLine := true } fun s => s.takeStop.finish s)

/-- STOP_LINE_RELEASE: no state but the level changes. -/
def execStopLineRelease (s : State) : Host.Outcome State Fault Refusal := .next { s with stopLine := false }

/-! ### The end of LOAD (R188) -/

/-- The HALT phase begins: a halt on every branch. -/
def State.beginHalt (s : State) : State :=
  (allBranches.foldl State.requestHalt { s with phase := .halt }).finish s

/-- LOAD_PHASE_END. -/
def execLoadPhaseEnd (s : State) : Host.Outcome State Fault Refusal :=
  if s.phase = .load then .next (s.event State.beginHalt) else .next s

/-! ### RESET_SECTOR and PORT_FRAME_SENT -/

/-- RESET_SECTOR: the answer OK is made; the reset follows when it has been sent (R187). -/
def resetSectorRule (s : State) : Reply := s.reply .ok

def execResetSector (p : PortId) (seq : Nat) (s : State) : Host.Outcome State Fault Refusal :=
  .next (s.request p .resetSector seq resetSectorRule)

/-- The frame is the answer OK of a RESET_SECTOR. -/
def PortFrame.resets : PortFrame → Bool
  | .answer a => a.own && decide (a.code = ReqCode.resetSector.number) && decide (a.result = .ok)
  | _ => false

/-- The frame is the answer of the request in hand. -/
def PortFrame.own : PortFrame → Bool
  | .answer a => a.own
  | _ => false

/-- The line of port `p` is free again; a sent answer frees the port (R170). -/
def State.lineFree (s : State) (p : PortId) (f : PortFrame) : State :=
  s.updPort p fun q =>
    if f.own then { q with sending := none, busy := false, inHand := none } else { q with sending := none }

/-- The straps are read at a RESET_SECTOR's reset event, as the pins stand then (R168, R181, R187): a free value (log 5). -/
def State.readStraps (s : State) : State :=
  { s with straps := ⟨allPorts.map (Config.strapLevels s.strapReads), rfl⟩, strapReads := s.strapReads + 1 }

/-- PORT_FRAME_SENT: the frame on port `p`'s line has been sent whole (R170, R173, R187). -/
def execPortFrameSent (p : PortId) (s : State) : Host.Outcome State Fault Refusal :=
  match (s.port p).sending with
  | some f =>
    if f.resets && !s.resetHeld then .next (s.readStraps.resetEvent false)
    else .next (s.event fun s => s.lineFree p f)
  | none => .next s

end Sys2Proof.Machine
end

