-- ==== Sys2Proof/Machine/Dispatch.lean ====
section
/-! DEFINITION. The meaning of every command: one arm for each constructor of `Instr`. -/

namespace Sys2Proof.Machine

def exec (i : Instr) (s : State) : Host.Outcome State Fault Refusal :=
  match i with
  | .openBatch p seq id => Sys2Proof.Machine.execOpenBatch p seq id s
  | .loadSegment p seq d => Sys2Proof.Machine.execLoadSegment p seq d s
  | .commitBatch p seq id => Sys2Proof.Machine.execCommitBatch p seq id s
  | .cancelOpen p seq => Sys2Proof.Machine.execCancelOpen p seq s
  | .abortBatch p seq id => Sys2Proof.Machine.execAbortBatch p seq id s
  | .ackLoadError p seq => Sys2Proof.Machine.execAckLoadError p seq s
  | .queryBatch p seq id => Sys2Proof.Machine.execQueryBatch p seq id s
  | .hold p seq => Sys2Proof.Machine.execHold p seq s
  | .resume p seq => Sys2Proof.Machine.execResume p seq s
  | .stop p seq => Sys2Proof.Machine.execStop p seq s
  | .queryQueue p seq => Sys2Proof.Machine.execQueryQueue p seq s
  | .querySlot p seq slot => Sys2Proof.Machine.execQuerySlot p seq slot s
  | .clearFault p seq slot => Sys2Proof.Machine.execClearFault p seq slot s
  | .retire p seq slot => Sys2Proof.Machine.execRetire p seq slot s
  | .unretire p seq slot => Sys2Proof.Machine.execUnretire p seq slot s
  | .storeRetired p seq => Sys2Proof.Machine.execStoreRetired p seq s
  | .measure p seq slot theta phi cells => Sys2Proof.Machine.execMeasure p seq slot theta phi cells s
  | .setFootprint p seq slot cells => Sys2Proof.Machine.execSetFootprint p seq slot cells s
  | .loadTrim p seq d => Sys2Proof.Machine.execLoadTrim p seq d s
  | .streamPositions p seq first count => Sys2Proof.Machine.execStreamPositions p seq first count s
  | .streamArm p seq first count => Sys2Proof.Machine.execStreamArm p seq first count s
  | .streamStop p seq => Sys2Proof.Machine.execStreamStop p seq s
  | .readSense p seq slot => Sys2Proof.Machine.execReadSense p seq slot s
  | .clearChange p seq slot => Sys2Proof.Machine.execClearChange p seq slot s
  | .setSenseWatch p seq slot watch => Sys2Proof.Machine.execSetSenseWatch p seq slot watch s
  | .queryCell p seq cell => Sys2Proof.Machine.execQueryCell p seq cell s
  | .takeBranch p seq branch => Sys2Proof.Machine.execTakeBranch p seq branch s
  | .giveBranch p seq branch => Sys2Proof.Machine.execGiveBranch p seq branch s
  | .directFrame p seq branch drop bytes => Sys2Proof.Machine.execDirectFrame p seq branch drop bytes s
  | .census p seq => Sys2Proof.Machine.execCensus p seq s
  | .queryBranch p seq branch => Sys2Proof.Machine.execQueryBranch p seq branch s
  | .reclaimBorder p seq link => Sys2Proof.Machine.execReclaimBorder p seq link s
  | .queryLink p seq link => Sys2Proof.Machine.execQueryLink p seq link s
  | .setTimebase p seq us => Sys2Proof.Machine.execSetTimebase p seq us s
  | .writeStoreSectorId p seq id => Sys2Proof.Machine.execWriteStoreSectorId p seq id s
  | .writeStoreFixedList p seq cells => Sys2Proof.Machine.execWriteStoreFixedList p seq cells s
  | .writeStorePatrolSet p seq slot cells => Sys2Proof.Machine.execWriteStorePatrolSet p seq slot cells s
  | .writeStoreBorderEntry p seq place entry => Sys2Proof.Machine.execWriteStoreBorderEntry p seq place entry s
  | .writeStoreRetiredEntry p seq slot entry => Sys2Proof.Machine.execWriteStoreRetiredEntry p seq slot entry s
  | .writeStoreClear p seq => Sys2Proof.Machine.execWriteStoreClear p seq s
  | .resetSector p seq => Sys2Proof.Machine.execResetSector p seq s
  | .subscribe p seq kinds => Sys2Proof.Machine.execSubscribe p seq kinds s
  | .queryNotices p seq => Sys2Proof.Machine.execQueryNotices p seq s
  | .badRequestFrame p bad => Sys2Proof.Machine.execBadRequestFrame p bad s
  | .portFrameSent p => Sys2Proof.Machine.execPortFrameSent p s
  | .scan => Sys2Proof.Machine.execScan s
  | .ack b d => Sys2Proof.Machine.execAck b d s
  | .nakBusy b d => Sys2Proof.Machine.execNakBusy b d s
  | .status b d r => Sys2Proof.Machine.execStatus b d r s
  | .roll b d => Sys2Proof.Machine.execRoll b d s
  | .branchFrameDiscarded b => Sys2Proof.Machine.execBranchFrameDiscarded b s
  | .replyWindowEnd b received => Sys2Proof.Machine.execReplyWindowEnd b received s
  | .settleEnd b d => Sys2Proof.Machine.execSettleEnd b d s
  | .nakBusyWaitEnd b d => Sys2Proof.Machine.execNakBusyWaitEnd b d s
  | .statusCallDue b d => Sys2Proof.Machine.execStatusCallDue b d s
  | .stallLimit b d => Sys2Proof.Machine.execStallLimit b d s
  | .idleCallDue b d => Sys2Proof.Machine.execIdleCallDue b d s
  | .dwellTimerEnd n => Sys2Proof.Machine.execDwellTimerEnd n s
  | .backoffEnd n => Sys2Proof.Machine.execBackoffEnd n s
  | .claimAnswerTimeout k => Sys2Proof.Machine.execClaimAnswerTimeout k s
  | .syncTimeout k => Sys2Proof.Machine.execSyncTimeout k s
  | .claim k sender number cells => Sys2Proof.Machine.execClaim k sender number cells s
  | .grant k sender number => Sys2Proof.Machine.execGrant k sender number s
  | .refuse k sender number reason => Sys2Proof.Machine.execRefuse k sender number reason s
  | .release k sender cells => Sys2Proof.Machine.execRelease k sender cells s
  | .sync k sender => Sys2Proof.Machine.execSync k sender s
  | .syncReport k sender lent borrowed => Sys2Proof.Machine.execSyncReport k sender lent borrowed s
  | .borderFrameDiscarded k => Sys2Proof.Machine.execBorderFrameDiscarded k s
  | .stopLineAssert => Sys2Proof.Machine.execStopLineAssert s
  | .stopLineRelease => Sys2Proof.Machine.execStopLineRelease s
  | .powerOn straps => Sys2Proof.Machine.execPowerOn straps s
  | .resetLineAssert => Sys2Proof.Machine.execResetLineAssert s
  | .resetLineRelease straps => Sys2Proof.Machine.execResetLineRelease straps s
  | .loadPhaseEnd => Sys2Proof.Machine.execLoadPhaseEnd s

end Sys2Proof.Machine
end

