-- ==== Sys2Proof/Machine/Frames.lean ====
section
/-! DEFINITION. The bytes on the lines (R192 to R194, chapter 12): the envelope and its check, reception, request frames read into
commands, answers, notices, records, border frames and branch calls written as bytes, border and branch frames read. -/

namespace Sys2Proof.Machine

/-! ### Bytes (R193) -/

/-- A value in 1 byte. -/
def b1 (n : Nat) : List Byte := [BitVec.ofNat 8 n]
/-- A value in 2 bytes, the more significant first. -/
def b2 (n : Nat) : List Byte := [BitVec.ofNat 8 (n / 256), BitVec.ofNat 8 n]
/-- A signed value in 2 bytes, two's complement. -/
def b2s (x : Int) : List Byte := b2 (BitVec.ofInt 16 x).toNat
/-- A flag. -/
def bit (b : Bool) : Nat := if b then 1 else 0
/-- A flag byte, bit 0 first. -/
def flags : List Bool → Nat
  | [] => 0
  | b :: l => bit b + 2 * flags l
/-- A cell list: a count byte and the cells. -/
def bCells (l : List CellId) : List Byte := b1 l.length ++ l.flatMap fun c => b2 c.val
/-- A cell list with a count of 2 bytes (section 12.5). -/
def bCells2 (l : List CellId) : List Byte := b2 l.length ++ l.flatMap fun c => b2 c.val
/-- A time in ms in 2 bytes; one that 2 bytes do not hold is sent as the part sends it (log 37). -/
def bMs (limit n : Nat) : List Byte := b2 (if n ≤ limit then n else (Config.longTime n).toNat)

/-! ### The envelope (R192) -/

/-- The three kinds of line. -/
inductive LineKind where
  | port | border | branch
deriving DecidableEq, Repr

/-- The sync byte. -/
def syncByte : Byte := 0xA5

/-- The length field of a line. -/
def LineKind.lengthField (l : LineKind) (n : Nat) : List Byte :=
  match l with
  | .branch => b1 n
  | _ => b2 n

/-- The greatest length accepted; the least is 4. -/
def LineKind.maxLength : LineKind → Nat
  | .port => 512
  | .border => 1100
  | .branch => 40

/-- One bit of the cyclic check: generator x^16 + x^12 + x^5 + 1. -/
def crcBit (r : BitVec 16) (b : Bool) : BitVec 16 :=
  if r.getLsbD 15 != b then (r <<< 1) ^^^ 0x1021 else r <<< 1

/-- One byte of the check, most significant bit first. -/
def crcByte (r : BitVec 16) (b : Byte) : BitVec 16 := [7, 6, 5, 4, 3, 2, 1, 0].foldl (fun r i => crcBit r (b.getLsbD i)) r

/-- The check of a run of bytes, from a register of all ones. -/
def crc (l : List Byte) : BitVec 16 := l.foldl crcByte 0xFFFF

/-- A body in its envelope. -/
def envelope (l : LineKind) (body : List Byte) : List Byte :=
  let run := l.lengthField (body.length + 2) ++ body
  syncByte :: (run ++ b2 (crc run).toNat)

/-! ### Reception (R192) -/

/-- What a receiving side is at: hunting, a sync byte with the length bytes so far, or a frame with its bytes so far (from the
length field on, in order) and the bytes to come. -/
inductive Rx where
  | hunt
  | length (got : List Byte)
  | frame (got : List Byte) (left : Nat)
deriving DecidableEq, Repr

/-- A frame that ended: its body, or a failed check. -/
inductive Received where
  | body (l : List Byte)
  | failed
deriving DecidableEq, Repr

/-- The bytes of the length field. -/
def LineKind.lengthBytes : LineKind → Nat
  | .branch => 1
  | _ => 2

/-- The value of a run of bytes, the most significant first. -/
def value (l : List Byte) : Nat := l.foldl (fun n b => 256 * n + b.toNat) 0

/-- A byte while hunting. -/
def huntByte (b : Byte) : Rx := if b = syncByte then .length [] else .hunt

/-- Hunting begins again at the byte after a sync byte: the second of two length bytes may be one itself, or the length byte
behind one. -/
def rehunt : List Byte → Rx
  | [] => .hunt
  | [b] => huntByte b
  | a :: l => if a = syncByte then .length l else rehunt l

/-- The end of a whole frame: its check is tested. -/
def testCheck (l : LineKind) (bytes : List Byte) : Received :=
  let run := bytes.take (bytes.length - 2)
  if value (bytes.drop (bytes.length - 2)) = (crc run).toNat then .body (run.drop l.lengthBytes) else .failed

/-- One byte is received. After a frame received whole hunting goes on at the next byte, also when its check is bad (log 56). -/
def Rx.byte (l : LineKind) (b : Byte) : Rx → Rx × Option Received
  | .hunt => (huntByte b, none)
  | .length got =>
    let bytes := got ++ [b]
    if bytes.length < l.lengthBytes then (.length bytes, none)
    else
      let n := value bytes
      if 4 ≤ n ∧ n ≤ l.maxLength then (.frame bytes n, none) else (rehunt bytes, some .failed)
  | .frame got left =>
    if left ≤ 1 then (.hunt, some (testCheck l (got ++ [b]))) else (.frame (got ++ [b]) (left - 1), none)

/-- The byte flow stops for longer than two byte times: hunting goes on at the next byte received (log 56). -/
def Rx.gap : Rx → Rx × Option Received
  | .hunt => (.hunt, none)
  | _ => (.hunt, some .failed)

/-- The frames that a run of bytes ends, from a receiving side that hunts. -/
def receiveFrom (l : LineKind) : Rx → List Byte → List Received
  | _, [] => []
  | r, b :: bytes =>
    let x := r.byte l b
    match x.2 with
    | some f => f :: receiveFrom l x.1 bytes
    | none => receiveFrom l x.1 bytes

def receive (l : LineKind) (bytes : List Byte) : List Received := receiveFrom l .hunt bytes

/-! ### Reading fields -/

/-- A field of 1 byte, with what follows it. -/
def read1 : List Byte → Option (Nat × List Byte)
  | a :: l => some (a.toNat, l)
  | [] => none

/-- A field of 2 bytes. -/
def read2 : List Byte → Option (Nat × List Byte)
  | a :: b :: l => some (256 * a.toNat + b.toNat, l)
  | _ => none

/-- A signed field of 2 bytes. -/
def read2s (l : List Byte) : Option (Int × List Byte) := (read2 l).map fun x => ((BitVec.ofNat 16 x.1).toInt, x.2)

/-- `n` fields of 2 bytes. -/
def readWords : Nat → List Byte → Option (List Nat × List Byte)
  | 0, l => some ([], l)
  | n + 1, l => (read2 l).bind fun x => (readWords n x.2).map fun y => (x.1 :: y.1, y.2)

/-- A cell list. -/
def readCells (l : List Byte) : Option (List Nat × List Byte) := (read1 l).bind fun x => readWords x.1 x.2

/-- A cell list with a count of 2 bytes. -/
def readCells2 (l : List Byte) : Option (List Nat × List Byte) := (read2 l).bind fun x => readWords x.1 x.2

/-- Nothing may follow. -/
def endOf {α : Type} (x : Option (α × List Byte)) : Option α := x.bind fun y => if y.2.isEmpty then some y.1 else none

/-- One field of 1 byte and no more. -/
def only1 (l : List Byte) : Option Nat := endOf (read1 l)
/-- One field of 2 bytes and no more. -/
def only2 (l : List Byte) : Option Nat := endOf (read2 l)

/-- A segment descriptor (R194). -/
def readDescriptor (l : List Byte) : Option Descriptor :=
  (read1 l).bind fun slot => (read1 slot.2).bind fun kind => (read2s kind.2).bind fun dt => (read2s dt.2).bind fun df =>
  (read1 df.2).bind fun axis => (read2 axis.2).bind fun dur => (read1 dur.2).bind fun rate =>
  (readCells rate.2).bind fun sweep => (readCells sweep.2).bind fun ends => (only2 ends.2).map fun tag =>
    { slot := slot.1, kind := kind.1, dTheta := dt.1, dPhi := df.1, axis := axis.1, duration := dur.1, rate := rate.1,
      sweep := sweep.1, ends := ends.1, tag := tag }

/-- A presence flag of one byte: bit 0 of it, the other bits disregarded (R193 names no bit; log 50). -/
def present (n : Nat) : Bool := decide (n % 2 = 1)

/-- The data of a BORDER_ENTRY. -/
def readBorderData (p : PortId) (seq : Nat) (l : List Byte) : Option Instr :=
  (read1 l).bind fun place => (read1 place.2).bind fun pr => (read2 pr.2).bind fun cell => (read1 cell.2).bind fun link =>
  (read2 link.2).bind fun theirs => (only1 theirs.2).map fun home =>
    .writeStoreBorderEntry p seq place.1
      (if present pr.1 then some { cell := cell.1, link := link.1, theirs := theirs.1, home := home } else none)

/-- The data of a RETIRED_ENTRY. -/
def readRetiredData (p : PortId) (seq : Nat) (l : List Byte) : Option Instr :=
  (read1 l).bind fun slot => (read1 slot.2).bind fun pr => (read2 pr.2).bind fun theta => (read2 theta.2).bind fun phi =>
  (endOf (readCells phi.2)).map fun cells =>
    .writeStoreRetiredEntry p seq slot.1
      (if present pr.1 then some { theta := theta.1, phi := phi.1, cells := cells } else none)

/-- The item and data of a WRITE_STORE (section 12.3); an item code outside its table is left to the owning rule (R193; log 49). -/
def readWrite (p : PortId) (seq : Nat) (l : List Byte) : Option Instr :=
  (read1 l).bind fun item =>
    match item.1 with
    | 1 => (only1 item.2).map fun id => .writeStoreSectorId p seq id
    | 2 => (endOf (readCells item.2)).map fun cells => .writeStoreFixedList p seq cells
    | 3 => (read1 item.2).bind fun slot => (endOf (readCells slot.2)).map fun cells => .writeStorePatrolSet p seq slot.1 cells
    | 4 => readBorderData p seq item.2
    | 5 => readRetiredData p seq item.2
    | 6 => if item.2.isEmpty then some (.writeStoreClear p seq) else none
    | _ => some (.badRequestFrame p (.unknownItem seq))

/-- A MEASURE. -/
def readMeasureFields (p : PortId) (seq : Nat) (l : List Byte) : Option Instr :=
  (read1 l).bind fun slot => (read2 slot.2).bind fun theta => (read2 theta.2).bind fun phi =>
  (endOf (readCells phi.2)).map fun cells => .measure p seq slot.1 theta.1 phi.1 cells

/-- A DIRECT_FRAME. -/
def readDirectFields (p : PortId) (seq : Nat) (l : List Byte) : Option Instr :=
  (read1 l).bind fun branch => (read1 branch.2).bind fun drop => (read1 drop.2).bind fun len =>
    if len.1 = len.2.length then some (.directFrame p seq branch.1 drop.1 len.2) else none

/-- First slot and count of a stream. -/
def readPair (l : List Byte) : Option (Nat × Nat) := (read1 l).bind fun a => (only1 a.2).map fun b => (a.1, b)

/-- A request with no fields. -/
def noFields (i : Instr) (l : List Byte) : Option Instr := if l.isEmpty then some i else none

/-- The first half of the master list, by code (R174, section 12.3). -/
def readLow (p : PortId) (code seq : Nat) (l : List Byte) : Option Instr :=
  match code with
  | 1 => (only2 l).map fun id => .openBatch p seq id
  | 2 => (readDescriptor l).map fun d => .loadSegment p seq d
  | 3 => (only2 l).map fun id => .commitBatch p seq id
  | 4 => noFields (.cancelOpen p seq) l
  | 5 => (only2 l).map fun id => .abortBatch p seq id
  | 6 => noFields (.ackLoadError p seq) l
  | 7 => (only2 l).map fun id => .queryBatch p seq id
  | 8 => noFields (.hold p seq) l
  | 9 => noFields (.resume p seq) l
  | 10 => noFields (.stop p seq) l
  | 11 => noFields (.queryQueue p seq) l
  | 12 => (only1 l).map fun n => .querySlot p seq n
  | 13 => (only1 l).map fun n => .clearFault p seq n
  | 14 => (only1 l).map fun n => .retire p seq n
  | 15 => (only1 l).map fun n => .unretire p seq n
  | 16 => noFields (.storeRetired p seq) l
  | 17 => readMeasureFields p seq l
  | 18 => (read1 l).bind fun n => (endOf (readCells n.2)).map fun c => .setFootprint p seq n.1 c
  | 19 => (readDescriptor l).map fun d => .loadTrim p seq d
  | _ => none

/-- The second half of the master list, by code. -/
def readHigh (p : PortId) (code seq : Nat) (l : List Byte) : Option Instr :=
  match code with
  | 20 => (readPair l).map fun x => .streamPositions p seq x.1 x.2
  | 21 => (readPair l).map fun x => .streamArm p seq x.1 x.2
  | 22 => noFields (.streamStop p seq) l
  | 23 => (only1 l).map fun n => .readSense p seq n
  | 24 => (only1 l).map fun n => .clearChange p seq n
  | 25 => (readPair l).map fun x => .setSenseWatch p seq x.1 (BitVec.ofNat 8 x.2)
  | 26 => (only2 l).map fun n => .queryCell p seq n
  | 27 => (only1 l).map fun n => .takeBranch p seq n
  | 28 => (only1 l).map fun n => .giveBranch p seq n
  | 29 => readDirectFields p seq l
  | 30 => noFields (.census p seq) l
  | 31 => (only1 l).map fun n => .queryBranch p seq n
  | 32 => (only1 l).map fun n => .reclaimBorder p seq n
  | 33 => (only1 l).map fun n => .queryLink p seq n
  | 34 => (only2 l).map fun n => .setTimebase p seq n
  | 35 => readWrite p seq l
  | 36 => noFields (.resetSector p seq) l
  | 37 => (only1 l).map fun n => .subscribe p seq (BitVec.ofNat 8 n)
  | 38 => noFields (.queryNotices p seq) l
  | _ => none

/-- The command of a frame received on a port (R169): a request of the master list, or a bad frame. -/
def portCommand (p : PortId) : Received → Instr
  | .failed => .badRequestFrame p .failedCheck
  | .body (c :: q :: l) =>
    let code := c.toNat
    let seq := q.toNat
    match if code ≤ 19 then readLow p code seq l else readHigh p code seq l with
    | some i => i
    | none => .badRequestFrame p (.wrongForm code seq)
  | .body _ => .badRequestFrame p .failedCheck

/-! ### Codes of named values (section 12.6) -/

def SlotState.code : SlotState → Nat
  | .absent => 0 | .unknown => 1 | .parked => 2 | .waiting => 3 | .moving => 4 | .dwelling => 5 | .stranded => 6
  | .faulted => 7 | .retired => 8

def FaultCode.code : FaultCode → Nat
  | .noReply => 1 | .short => 2 | .contact => 3 | .stalled => 4 | .datumMissing => 5 | .countRange => 6

def FailReason.code : FailReason → Nat
  | .short => 1 | .collided => 2 | .interrupted => 3 | .noReply => 4 | .stalled => 5 | .datumMissing => 6

def SegState.code : SegState → Nat
  | .staged => 1 | .chained => 2 | .granted => 3 | .active => 4

def BatchState.code : BatchState → Nat
  | .opened => 0 | .running => 1 | .aborting => 2 | .done => 3 | .aborted => 4

def SectorState.code : SectorState → Nat
  | .unconfigured => 0 | .starting => 1 | .hold => 2 | .run => 3 | .stopping => 4 | .stopped => 5

def LinkState.code : LinkState → Nat
  | .unsynced => 0 | .up => 1 | .down => 2

/-- The owner kind with the slot or link it names, 0 when it names none. -/
def Owner.code : Owner → Nat × Nat
  | .free => (0, 0) | .held n => (1, n.val) | .pending n => (2, n.val) | .fixed => (3, 0) | .lent k => (4, k.val)
  | .blocked k => (5, k.val) | .away k => (6, k.val) | .orphan k => (7, k.val)

/-- The home of a border cell: LOCAL 0, REMOTE 1. -/
def homeCode : Home → Nat
  | .here => 0 | .remote => 1

def Role.code : Role → Nat
  | .plan => 1 | .metro => 2 | .service => 3

def Access.code : Access → Nat
  | .own => 0 | .taking => 1 | .taken => 2

def ClaimEnd.code : ClaimEnd → Nat
  | .granted => 1 | .refusedBusy => 2 | .refusedBlocked => 3 | .timedOut => 4 | .released => 5

/-- The value of a result code (R175). -/
def Result.code : Result → Nat
  | .ok => 0 | .portBusy => 1 | .role => 2 | .badArg => 3 | .loadErrorSet => 4 | .noBatch => 5 | .dupId => 6
  | .tableFull => 7 | .poolEmpty => 8 | .chainFull => 9 | .absent => 10 | .retired => 11 | .faulted => 12 | .busy => 13
  | .state => 14 | .keepout => 15 | .twoLinks => 16 | .conflict => 17 | .notSubset => 18 | .noTimebase => 19
  | .alreadySet => 20 | .unconfigured => 21 | .stopActive => 22 | .notTaken => 23 | .taken => 24 | .streaming => 25
  | .linkUp => 26

/-- A senses byte: bits 0 to 2 (section 12.2). -/
def senseBits (x : Senses) : Nat := flags [x.theta, x.phi, x.contact]

/-! ### Port frames sent (section 12.2) -/

/-- A batch id, 0 for absent (R193). -/
def bBatch (b : Option Nat) : List Byte := b2 (b.getD 0)

/-- A notice: its kind number and its fields. -/
def Notice.bytes : Notice → List Byte
  | .segDone n tag b => b1 1 ++ b1 n.val ++ b2 tag ++ bBatch b
  | .segFailed n tag b r => b1 2 ++ b1 n.val ++ b2 tag ++ bBatch b ++ b1 r.code
  | .batchEnd b l d f k a => b1 3 ++ b2 b ++ b2 l ++ b2 d ++ b2 f ++ b2 k ++ b1 (bit a)
  | .slotFault n c => b1 4 ++ b1 n.val ++ b1 c.code
  | .senseChange n x => b1 5 ++ b1 n.val ++ b1 (senseBits x)
  | .streamEnd n st => b1 6 ++ b1 n ++ b1 (bit st)
  | .linkState k st => b1 7 ++ b1 k.val ++ b1 st.code
  | .sectorState st => b1 8 ++ b1 st.code
  | .summary k n => b1 9 ++ b1 (k.idx.val + 1) ++ b1 n

/-- The position of a record or a slot answer, 0 and 0 when not known. -/
def bPos (p : Option (Theta × Phi)) : List Byte :=
  match p with
  | some x => b2 x.1.val ++ b2 x.2.val
  | none => b2 0 ++ b2 0

/-- A fault code, 0 when absent. -/
def bFault (c : Option FaultCode) : List Byte := b1 ((c.map FaultCode.code).getD 0)

/-- A position record. -/
def PosRecord.bytes (r : PosRecord) : List Byte :=
  b1 r.index ++ b1 r.slot.val ++ b1 r.state.code ++ b1 (flags [r.pos.isSome, r.fault.isSome, r.tag.isSome]) ++ bPos r.pos ++
    bFault r.fault ++ b2 (r.tag.getD 0)

/-- The counts of a batch record. -/
def BatchView.counts (b : BatchView) : List Byte :=
  b1 b.state.code ++ b2 b.loaded ++ b2 b.staged ++ b2 b.pending ++ b2 b.done ++ b2 b.failed ++ b2 b.skipped

/-- A grant-queue entry. The link is R73's claim link, sent whether the pending-claim mark is set or clear, and 0 where no claim was made
(log 59). -/
def QueueView.bytes (e : QueueView) : List Byte :=
  b1 e.slot.val ++ b1 e.passOver ++ b1 (flags [e.barrier, e.pendingClaim, e.backoff]) ++ b1 ((e.claimLink.map (·.val)).getD 0)

/-- The rest-cell kind and the cells (R3). -/
def Stand.restBytes : Stand → List Byte
  | .lost => b1 0 ++ bCells []
  | .footprint _ _ c => b1 1 ++ bCells c
  | .sweep _ _ c => b1 2 ++ bCells c

/-- A slot record. -/
def SlotView.bytes (v : SlotView) : List Byte :=
  b1 v.state.code ++ b1 ((v.rest.map SlotState.code).getD Config.noRestState.toNat) ++
    b1 (flags [v.populated, v.stand.known, v.inQueue, v.fault.isSome]) ++ bPos v.stand.pos ++ bFault v.fault ++
    v.stand.restBytes ++ b1 v.chainLength ++ b1 v.granted.length ++ v.granted.flatMap fun x => b2 x.1 ++ b1 x.2.code

/-- A cell record. -/
def CellView.bytes (v : CellView) : List Byte :=
  b1 v.owner.code.1 ++ b1 v.owner.code.2 ++ b1 v.shadow ++ b1 (bit v.fixed) ++ b1 (bit v.border.isSome) ++
    match v.border with
    | some e => b1 e.link.val ++ b2 e.theirs.val ++ b1 (homeCode e.home)
    | none => b1 0 ++ b2 0 ++ b1 0

/-- The drop address of a frame to every drop (R194). -/
def everyDrop : Nat := 31

/-- A queue entry of a branch; the halt is to every drop (log 38). -/
def EntryView.bytes (e : EntryView) : List Byte :=
  b1 e.kind ++ b1 ((e.drop.map (·.val)).getD everyDrop) ++ b1 ((e.slot.map (·.val)).getD 0) ++ b1 (flags [e.continuation, e.ready])

/-- A poll-list entry. -/
def PollView.bytes (e : PollView) : List Byte :=
  b1 e.drop.val ++ b2 (e.tag.getD 0) ++ b1 (flags [e.haltMark, e.finalMark]) ++ bMs 65535 e.msLeft

/-- The transaction in progress. -/
def busBytes : Option (Nat × Option DropId × Nat) → List Byte
  | some (k, d, n) => b1 k ++ b1 ((d.map (·.val)).getD everyDrop) ++ b1 n
  | none => b1 0 ++ b1 0 ++ b1 0

/-- The energized flag and the time since the last DONE, 65,535 when absent. -/
def dropBytes (x : Bool × Option Nat) : List Byte :=
  b1 (bit x.1) ++ match x.2 with
    | some t => bMs 65534 t
    | none => b2 65535

/-- A branch. -/
def BranchView.bytes (v : BranchView) : List Byte :=
  b1 v.access.code ++ b1 (bit v.halting) ++ b1 v.entries.length ++ v.entries.flatMap EntryView.bytes ++ b1 v.backlog.length ++
    v.backlog.flatMap (fun n => b1 n.val) ++ busBytes v.bus ++ b1 v.poll.length ++ v.poll.flatMap PollView.bytes ++
    v.drops.flatMap dropBytes

/-- The claim of a link. -/
def LinkView.claimBytes (v : LinkView) : List Byte :=
  match v.claim with
  | some c =>
    b1 1 ++ b1 c.number.toNat ++ b1 c.slot.val ++ b2 c.seg.val ++ bCells c.cells ++ b1 (bit c.withdrawn) ++ b1 v.msLeft
  | none => b1 0 ++ b1 0 ++ b1 0 ++ b2 0 ++ bCells [] ++ b1 0 ++ b1 0

/-- A link. -/
def LinkView.bytes (v : LinkView) : List Byte :=
  b1 v.state.code ++ b1 (bit v.syncOwed) ++ b1 v.timeouts ++ b1 ((v.neighbour.map (·.val)).getD 255) ++ v.claimBytes ++
    b1 ((v.lastEnd.map fun x => x.2.code).getD 0) ++ v.counts.flatMap b2

/-- The answer fields (section 12.3, and note 1 of section 12.2). A byte of one flag carries it in bit 0 (log 50). -/
def AnswerFields.bytes : AnswerFields → List Byte
  | .none => []
  | .segment id => b2 id.val
  | .slotNamed n => b1 n.val
  | .timebase us => b2 us
  | .noBatch e n => b1 (bit e) ++ b2 n
  | .batch e n b st =>
    b1 (bit e) ++ b2 n ++ b.counts ++ b1 st.length ++ st.flatMap fun x => b1 x.1.val ++ b1 x.2
  | .batchTable e n rows => b1 (bit e) ++ b2 n ++ b1 rows.length ++ rows.flatMap fun b => b2 b.id ++ b.counts
  | .queue st line rows => b1 st.code ++ b1 (bit line) ++ b1 rows.length ++ rows.flatMap QueueView.bytes
  | .slot v => v.bytes
  | .stored n => b1 n
  | .senses (some (x, age)) w c => b1 (senseBits x + 128) ++ b2 age ++ b1 (senseBits w) ++ b1 (bit c)
  | .senses Option.none w c => b1 0 ++ b2 0 ++ b1 (senseBits w) ++ b1 (bit c)
  | .changedBefore c => b1 (bit c)
  | .cell v => v.bytes
  | .reply l => b1 l.length ++ l
  | .branch v => v.bytes
  | .link v => v.bytes
  | .written n v => b1 n ++ b1 (bit v)
  | .notices v => b1 v.port.val ++ b1 v.role.code ++ [v.subs] ++ b1 v.queued ++ v.heldOver.flatMap b1

/-- The body of a frame on a port, class byte first. -/
def PortFrame.body : PortFrame → List Byte
  | .answer a => b1 1 ++ b1 a.code ++ b1 a.seq ++ b1 a.result.code ++ a.fields.bytes
  | .notice n => b1 2 ++ n.bytes
  | .record r => b1 3 ++ r.bytes

/-- A frame on a port's line. -/
def PortFrame.bytes (f : PortFrame) : List Byte := envelope .port f.body

/-! ### Border frames (section 12.5) -/

/-- The refuse reason by its number. -/
def reasonCode : RefuseReason → Nat
  | .busy => 1 | .blocked => 2

/-- A border frame with its sender's id. -/
def borderBytes (sender : SectorId) (f : BorderFrame) : List Byte :=
  envelope .border (match f with
    | .claim n c => b1 1 ++ b1 sender.val ++ [n] ++ bCells c
    | .grant n => b1 2 ++ b1 sender.val ++ [n]
    | .refuse n r => b1 3 ++ b1 sender.val ++ [n] ++ b1 (reasonCode r)
    | .release c => b1 4 ++ b1 sender.val ++ bCells2 c
    | .sync => b1 5 ++ b1 sender.val
    | .syncReport a c => b1 6 ++ b1 sender.val ++ bCells2 a ++ bCells2 c)

/-- The reason by its number. -/
def reasonOf : Nat → Option RefuseReason
  | 1 => some .busy
  | 2 => some .blocked
  | _ => none

/-- The fields of a border frame, by its kind. -/
def readBorderFrame (k : LinkId) (kind : Nat) (x : SectorId) (l : List Byte) : Option Instr :=
  match kind with
  | 1 => (read1 l).bind fun n => (endOf (readCells n.2)).map fun c => .claim k x (BitVec.ofNat 8 n.1) c
  | 2 => (only1 l).map fun n => .grant k x (BitVec.ofNat 8 n)
  | 3 => (readPair l).bind fun y => (reasonOf y.2).map fun r => .refuse k x (BitVec.ofNat 8 y.1) r
  | 4 => (endOf (readCells2 l)).map fun c => .release k x c
  | 5 => if l.isEmpty then some (.sync k x) else none
  | 6 => (readCells2 l).bind fun a => (endOf (readCells2 a.2)).map fun b => .syncReport k x a.1 b
  | _ => none

/-- The command of a frame received on a link (R117); a sender id above 63 is no sector id (log 30). -/
def linkCommand (k : LinkId) : Received → Instr
  | .body (kind :: sender :: l) =>
    match (inRange 64 sender.toNat).bind fun x => readBorderFrame k kind.toNat x l with
    | some i => i
    | none => .borderFrameDiscarded k
  | _ => .borderFrameDiscarded k

/-! ### Branch frames (section 12.4) -/

/-- The kind, deltas and axis of a step order. -/
def SegBody.orderBytes (keep : Bool) : SegBody → List Byte
  | .move a b _ _ _ => b1 1 ++ b1 (bit keep) ++ b2s a ++ b2s b ++ b1 0
  | .trim a b _ _ _ => b1 2 ++ b1 (bit keep) ++ b2s a ++ b2s b ++ b1 0
  | .datum a _ _ _ => b1 3 ++ b1 (bit keep) ++ b2s 0 ++ b2s 0 ++ b1 (match a with
      | .theta => 1
      | .phi => 2
      | .both => 3)
  | .dwell _ => []

/-- The bytes of a call on the bus (R112, R194): a direct frame goes as SERVICE gave it. -/
def State.callBytes (s : State) : Call → List Byte
  | .halt => envelope .branch (b1 everyDrop ++ b1 3)
  | .entry (.order o) =>
    match s.seg o.seg with
    | some g => envelope .branch (b1 o.drop.val ++ b1 1 ++ g.body.orderBytes (o.keep.getD false) ++ b2 o.period)
    | none => []
  | .entry (.status d _) => envelope .branch (b1 d.val ++ b1 2)
  | .entry (.roll d) => envelope .branch (b1 d.val ++ b1 4)
  | .entry (.direct _ bytes) => bytes

/-- The robot state by its number. -/
def robotStateOf : Nat → Option RobotState
  | 0 => some .idle
  | 1 => some .running
  | 2 => some .done
  | 3 => some .stopped
  | _ => none

/-- A bit of a flag byte. -/
def flagAt (n i : Nat) : Bool := n.testBit i

/-- The fields of a STATUS. -/
def readStatusReply (l : List Byte) : Option StatusReply :=
  (read1 l).bind fun st => (read2s st.2).bind fun a => (read2s a.2).bind fun b => (only1 b.2).bind fun f =>
  (robotStateOf st.1).map fun r =>
    { state := r, dTheta := a.1, dPhi := b.1, datumFound := flagAt f 0,
      senses := { theta := flagAt f 1, phi := flagAt f 2, contact := flagAt f 3 } }

/-- The fields of a reply, by its kind. A reply longer than its layout is none, but for ROLL, whose further bytes are not read (R194;
log 53). -/
def readReply (b : BranchId) (d : DropId) (kind : Nat) (l : List Byte) : Option Instr :=
  match kind with
  | 1 => noFields (.ack b d) l
  | 2 => noFields (.nakBusy b d) l
  | 3 => (readStatusReply l).map fun r => .status b d r
  | 4 => some (.roll b d)
  | _ => none

/-- The command of a frame received on a branch (R91, R193). -/
def branchCommand (b : BranchId) : Received → Instr
  | .body (d :: kind :: l) =>
    match (inRange 24 d.toNat).bind fun x => readReply b x kind.toNat l with
    | some i => i
    | none => .branchFrameDiscarded b
  | _ => .branchFrameDiscarded b

end Sys2Proof.Machine
end

