-- ==== Sys2Proof/WellFormed.lean ====
section
/-! DEFINITION. Which commands a frame or an event can bring: every field fits its place in the layouts of chapter 12, and every
frame fits its line (R192 to R194). A range that an owning rule judges (a slot above 95) is no matter of form. -/

namespace Sys2Proof

/-- A value of 1 byte. -/
def fits1 (n : Nat) : Bool := decide (n < 256)
/-- A value of 2 bytes. -/
def fits2 (n : Nat) : Bool := decide (n < 65536)
/-- A signed value of 2 bytes, two's complement (R193). -/
def fitsS (x : Int) : Bool := decide (-32768 ≤ x) && decide (x < 32768)
/-- A cell list: cells of 2 bytes, at most `most` of them, so that the frame fits its line. -/
def fitsCells (most : Nat) (l : List Nat) : Bool := decide (l.length ≤ most) && l.all fits2

/-- The longest body of a request frame: the length of at most 512 counts its check (R192). -/
def longestBody : Nat := 510

/-- A descriptor of 14 + 2s + 2e bytes behind the code and sequence number (R194). -/
def fitsDescriptor (d : Descriptor) : Bool :=
  fits1 d.slot && fits1 d.kind && fitsS d.dTheta && fitsS d.dPhi && fits1 d.axis && fits2 d.duration && fits1 d.rate &&
  d.sweep.all fits2 && d.ends.all fits2 && fits2 d.tag &&
  decide (16 + 2 * d.sweep.length + 2 * d.ends.length ≤ longestBody)

/-- A border entry of WRITE_STORE (section 12.3). -/
def fitsBorder (e : RawBorder) : Bool := fits2 e.cell && fits1 e.link && fits2 e.theirs && fits1 e.home

/-- A retired entry of WRITE_STORE (section 12.3). -/
def fitsRetired (e : RawRetired) : Bool := fits2 e.theta && fits2 e.phi && fitsCells 250 e.cells

/-- A STATUS reply (section 12.4). -/
def fitsStatus (r : StatusReply) : Bool := fitsS r.dTheta && fitsS r.dPhi

/-- A bad request frame: of any code and sequence number of 1 byte. -/
def fitsBad : BadFrame → Bool
  | .failedCheck => true
  | .wrongForm code seq => fits1 code && fits1 seq
  | .unknownItem seq => fits1 seq

/-- A command is well formed. -/
def wellFormed : Instr → Bool
  | .openBatch _ seq id => fits1 seq && fits2 id
  | .loadSegment _ seq d => fits1 seq && fitsDescriptor d
  | .commitBatch _ seq id => fits1 seq && fits2 id
  | .cancelOpen _ seq => fits1 seq
  | .abortBatch _ seq id => fits1 seq && fits2 id
  | .ackLoadError _ seq => fits1 seq
  | .queryBatch _ seq id => fits1 seq && fits2 id
  | .hold _ seq => fits1 seq
  | .resume _ seq => fits1 seq
  | .stop _ seq => fits1 seq
  | .queryQueue _ seq => fits1 seq
  | .querySlot _ seq slot => fits1 seq && fits1 slot
  | .clearFault _ seq slot => fits1 seq && fits1 slot
  | .retire _ seq slot => fits1 seq && fits1 slot
  | .unretire _ seq slot => fits1 seq && fits1 slot
  | .storeRetired _ seq => fits1 seq
  | .measure _ seq slot theta phi cells => fits1 seq && fits1 slot && fits2 theta && fits2 phi && fitsCells 251 cells
  | .setFootprint _ seq slot cells => fits1 seq && fits1 slot && fitsCells 253 cells
  | .loadTrim _ seq d => fits1 seq && fitsDescriptor d
  | .streamPositions _ seq first count => fits1 seq && fits1 first && fits1 count
  | .streamArm _ seq first count => fits1 seq && fits1 first && fits1 count
  | .streamStop _ seq => fits1 seq
  | .readSense _ seq slot => fits1 seq && fits1 slot
  | .clearChange _ seq slot => fits1 seq && fits1 slot
  | .setSenseWatch _ seq slot _ => fits1 seq && fits1 slot
  | .queryCell _ seq cell => fits1 seq && fits2 cell
  | .takeBranch _ seq branch => fits1 seq && fits1 branch
  | .giveBranch _ seq branch => fits1 seq && fits1 branch
  | .directFrame _ seq branch drop bytes => fits1 seq && fits1 branch && fits1 drop && decide (bytes.length ≤ 255)
  | .census _ seq => fits1 seq
  | .queryBranch _ seq branch => fits1 seq && fits1 branch
  | .reclaimBorder _ seq link => fits1 seq && fits1 link
  | .queryLink _ seq link => fits1 seq && fits1 link
  | .setTimebase _ seq us => fits1 seq && fits2 us
  | .writeStoreSectorId _ seq id => fits1 seq && fits1 id
  | .writeStoreFixedList _ seq cells => fits1 seq && fitsCells 253 cells
  | .writeStorePatrolSet _ seq slot cells => fits1 seq && fits1 slot && fitsCells 252 cells
  | .writeStoreBorderEntry _ seq place entry => fits1 seq && fits1 place && entry.all fitsBorder
  | .writeStoreRetiredEntry _ seq slot entry => fits1 seq && fits1 slot && entry.all fitsRetired
  | .writeStoreClear _ seq => fits1 seq
  | .resetSector _ seq => fits1 seq
  | .subscribe _ seq _ => fits1 seq
  | .queryNotices _ seq => fits1 seq
  | .badRequestFrame _ bad => fitsBad bad
  | .portFrameSent _ => true
  | .scan => true
  | .ack _ _ => true
  | .nakBusy _ _ => true
  | .status _ _ r => fitsStatus r
  | .roll _ _ => true
  | .branchFrameDiscarded _ => true
  | .replyWindowEnd _ received => decide (received.length ≤ 32)
  | .settleEnd _ _ => true
  | .nakBusyWaitEnd _ _ => true
  | .statusCallDue _ _ => true
  | .stallLimit _ _ => true
  | .idleCallDue _ _ => true
  | .dwellTimerEnd _ => true
  | .backoffEnd _ => true
  | .claimAnswerTimeout _ => true
  | .syncTimeout _ => true
  | .claim _ _ _ cells => decide (1 ≤ cells.length) && fitsCells 32 cells
  | .grant _ _ _ => true
  | .refuse _ _ _ _ => true
  | .release _ _ cells => decide (1 ≤ cells.length) && fitsCells 256 cells
  | .sync _ _ => true
  | .syncReport _ _ lent borrowed => fitsCells 256 lent && fitsCells 256 borrowed
  | .borderFrameDiscarded _ => true
  | .stopLineAssert => true
  | .stopLineRelease => true
  | .powerOn _ => true
  | .resetLineAssert => true
  | .resetLineRelease _ => true
  | .loadPhaseEnd => true

end Sys2Proof
end

