-- ==== Sys2Proof/Safety.lean ====
section
/-! DEFINITION. The terms that statements are made in: the answers a port has made, a request that reaches its owning rule, what a
request leaves alone, and the invariants of the part. -/

namespace Sys2Proof.Machine

/-! ### Answers and requests -/

/-- The answer in a frame. -/
def PortFrame.answers : PortFrame → List Answer
  | .answer a => [a]
  | _ => []

/-- The answers made on a port and not yet sent whole, the one on the line first (R173). -/
def State.lined (s : State) (p : PortId) : List Answer :=
  (match (s.port p).sending with
    | some f => f.answers
    | none => []) ++ (s.port p).answers

/-- A request frame on port `p` is judged by its checks after the first two: the part is not held, the port has a role and is not
busy (R168, R169, R187). -/
structure State.Ready (s : State) (p : PortId) (r : Role) : Prop where
  released : s.resetHeld = false
  role : (s.port p).role = some r
  free : (s.port p).busy = false

/-- A request reaches its owning rule (R169, R172). -/
structure State.Takes (s : State) (p : PortId) (r : Role) (c : ReqCode) : Prop extends s.Ready p r where
  allowed : c.allowed r = true
  configured : s.sector = .unconfigured → r = .service ∨ c.passesUnconfigured = true

/-- The answer of the request in hand. -/
def ReqCode.answer (c : ReqCode) (seq : Nat) (r : Result) (f : AnswerFields) : Answer :=
  { own := true, code := c.number, seq := seq, result := r, fields := f }

/-- From `s` to `t` one answer was made on port `p`, and the port is busy with it (R169). -/
def State.Answers (s t : State) (p : PortId) (a : Answer) : Prop :=
  t.lined p = s.lined p ++ [a] ∧ (t.port p).busy = true

/-- The answer made last on port `p` is `a`, and the port is busy with it: for a request whose event may also end a deferred one. -/
def State.AnswersLast (s t : State) (p : PortId) (a : Answer) : Prop :=
  (∃ l, t.lined p = s.lined p ++ l ++ [a]) ∧ (t.port p).busy = true

/-- The request is in hand and no answer was made on port `p` (R171). -/
def State.Defers (s t : State) (p : PortId) (c : ReqCode) (seq : Nat) : Prop :=
  t.lined p = s.lined p ∧ (t.port p).busy = true ∧ (t.port p).inHand = some { code := c.number, seq := seq }

/-- The state apart from the send sides: the ports, and the position stream that a send side carries forward. -/
def State.apart (s : State) : State := { s with ports := State.reset.ports, stream := none }

/-- The notices a port has to send, the one on its line first (R173, R176). -/
def Port.told (q : Port) : List Notice :=
  (match q.sending with
    | some (.notice nt) => [nt]
    | _ => []) ++ q.notices

/-- From `s` to `t` port `q` kept its answers, its request in hand, its role and its subscriptions, and lost no notice. -/
structure State.SamePort (s t : State) (q : PortId) : Prop where
  answers : t.lined q = s.lined q
  busy : (t.port q).busy = (s.port q).busy
  inHand : (t.port q).inHand = (s.port q).inHand
  role : (t.port q).role = (s.port q).role
  subs : (t.port q).subs = (s.port q).subs
  told : (s.port q).told <+: (t.port q).told

/-- From `s` to `t` a request on port `p` was answered `a`, and apart from the send sides the state became that of `u`. -/
structure State.Completes (s t : State) (p : PortId) (a : Answer) (u : State) : Prop where
  answered : s.Answers t p a
  apart : t.apart = u.apart
  role : (t.port p).role = (s.port p).role
  subs : (t.port p).subs = (s.port p).subs
  told : (s.port p).told <+: (t.port p).told
  others : ∀ q, q ≠ p → s.SamePort t q

/-- The port, the code and the sequence number of a request. -/
def requestOf : Instr → Option (PortId × ReqCode × Nat)
  | .openBatch p seq _ => some (p, .openBatch, seq)
  | .loadSegment p seq _ => some (p, .loadSegment, seq)
  | .commitBatch p seq _ => some (p, .commitBatch, seq)
  | .cancelOpen p seq => some (p, .cancelOpen, seq)
  | .abortBatch p seq _ => some (p, .abortBatch, seq)
  | .ackLoadError p seq => some (p, .ackLoadError, seq)
  | .queryBatch p seq _ => some (p, .queryBatch, seq)
  | .hold p seq => some (p, .hold, seq)
  | .resume p seq => some (p, .resume, seq)
  | .stop p seq => some (p, .stop, seq)
  | .queryQueue p seq => some (p, .queryQueue, seq)
  | .querySlot p seq _ => some (p, .querySlot, seq)
  | .clearFault p seq _ => some (p, .clearFault, seq)
  | .retire p seq _ => some (p, .retire, seq)
  | .unretire p seq _ => some (p, .unretire, seq)
  | .storeRetired p seq => some (p, .storeRetired, seq)
  | .measure p seq _ _ _ _ => some (p, .measure, seq)
  | .setFootprint p seq _ _ => some (p, .setFootprint, seq)
  | .loadTrim p seq _ => some (p, .loadTrim, seq)
  | .streamPositions p seq _ _ => some (p, .streamPositions, seq)
  | .streamArm p seq _ _ => some (p, .streamArm, seq)
  | .streamStop p seq => some (p, .streamStop, seq)
  | .readSense p seq _ => some (p, .readSense, seq)
  | .clearChange p seq _ => some (p, .clearChange, seq)
  | .setSenseWatch p seq _ _ => some (p, .setSenseWatch, seq)
  | .queryCell p seq _ => some (p, .queryCell, seq)
  | .takeBranch p seq _ => some (p, .takeBranch, seq)
  | .giveBranch p seq _ => some (p, .giveBranch, seq)
  | .directFrame p seq _ _ _ => some (p, .directFrame, seq)
  | .census p seq => some (p, .census, seq)
  | .queryBranch p seq _ => some (p, .queryBranch, seq)
  | .reclaimBorder p seq _ => some (p, .reclaimBorder, seq)
  | .queryLink p seq _ => some (p, .queryLink, seq)
  | .setTimebase p seq _ => some (p, .setTimebase, seq)
  | .writeStoreSectorId p seq _ => some (p, .writeStore, seq)
  | .writeStoreFixedList p seq _ => some (p, .writeStore, seq)
  | .writeStorePatrolSet p seq _ _ => some (p, .writeStore, seq)
  | .writeStoreBorderEntry p seq _ _ => some (p, .writeStore, seq)
  | .writeStoreRetiredEntry p seq _ _ => some (p, .writeStore, seq)
  | .writeStoreClear p seq => some (p, .writeStore, seq)
  | .resetSector p seq => some (p, .resetSector, seq)
  | .subscribe p seq _ => some (p, .subscribe, seq)
  | .queryNotices p seq => some (p, .queryNotices, seq)
  | .badRequestFrame p (.unknownItem seq) => some (p, .writeStore, seq)
  | _ => none

/-- What a request refused on a busy port adds to its answers: PORT_BUSY, unless the refusal list holds 4 (R170). -/
def State.refusal (s : State) (p : PortId) (code seq : Nat) : List Answer :=
  if ((s.port p).answers.filter fun a => !a.own).length < 4 then
    [{ own := false, code := code, seq := seq, result := .portBusy, fields := .none }]
  else []

/-- A slot's entry as it joins the grant queue (R75). -/
def QEntry.fresh (n : SlotId) : QEntry :=
  { slot := n, passOver := 0, pendingClaim := false, backoff := none, claimLink := none }

/-- No two ports have the same role (R168). -/
def State.RolesDistinct (s : State) : Prop := ∀ p q r, (s.port p).role = some r → (s.port q).role = some r → p = q

/-! ### What a rule leaves -/

/-- From `s` to `t` a WRITE_STORE on port `p` was accepted and the image is `i`: its check is computed anew, the answer counts the
patrol-set places that hold a set and tells whether all 96 do (R183, R185). -/
def State.Writes (s t : State) (p : PortId) (seq : Nat) (i : Image) : Prop :=
  s.Completes t p (ReqCode.writeStore.answer seq .ok
      (.written (i.patrol.items.filter Option.isSome).length (i.patrol.items.all Option.isSome)))
    { s with store := { image := i, check := Config.storeCheck i } }

/-- `u` is `s` with the open batch `b` abandoned (R48, R57): its staged records FREE and back on the free list in load order, its
batch record free. -/
structure State.Abandons (s u : State) (b : Batch) : Prop where
  rest : u = { s with pool := u.pool, free := b.staging.reverse ++ s.free, batches := u.batches }
  gone : ∀ id ∈ b.staging, u.seg id = none
  kept : ∀ id, id ∉ b.staging → u.seg id = s.seg id
  record : ∀ i, u.batches.get i = if (s.batches.get i).any (fun x => decide (x.id = b.id)) then none else s.batches.get i

/-- Where the robots of `s` stand, who owns the cells, who waits for a grant and what the batches count is so in `t` too. -/
structure State.SameField (s t : State) : Prop where
  slots : t.slots = s.slots
  cells : t.cells = s.cells
  queue : t.queue = s.queue
  dwell : t.dwell = s.dwell
  batches : t.batches = s.batches
  loadError : t.loadError = s.loadError
  senses : t.senses = s.senses
  retired : t.retired = s.retired
  armed : t.armed = s.armed

/-- The image that a reset builds the working state from: the stored one when it is valid, else a blank one (R183). -/
def State.loaded (s : State) : Image := if storeValid s.store then s.store.image else .blank

/-- The cell map after a reset, by the working fixed list, border table and retired set (R41). -/
structure State.RebuiltCells (t : State) : Prop where
  fixed : ∀ c, c ∈ t.fixed → (t.cell c).owner = .fixed
  away : ∀ c e, c ∉ t.fixed → t.borderOf c.val = some e → e.home = .remote → (t.cell c).owner = .away e.link
  held : ∀ c n e, c ∉ t.fixed → (∀ b, t.borderOf c.val = some b → b.home = .here) → t.retired.get n = some e → c ∈ e.cells →
    (∀ m x, m < n → t.retired.get m = some x → c ∉ x.cells) → (t.cell c).owner = .held n
  blocked : ∀ c b, c ∉ t.fixed → t.borderOf c.val = some b → b.home = .here →
    (∀ m x, t.retired.get m = some x → c ∉ x.cells) → (t.cell c).owner = .blocked b.link
  free : ∀ c, c ∉ t.fixed → t.borderOf c.val = none → (∀ m x, t.retired.get m = some x → c ∉ x.cells) →
    (t.cell c).owner = .free
  shadow : ∀ c, (t.cell c).shadow = 0

/-- `t` is what a reset event makes of `s` (R22, R41, R90, R116, R154, R168, R183, R184, R187, R188). -/
structure State.Restarted (s t : State) (powerOn : Bool) : Prop where
  store : t.store = s.store
  sector : t.sector = if storeValid s.store then .starting else .unconfigured
  phase : t.phase = .load
  sectorId : t.sectorId = s.loaded.sectorId
  fixed : t.fixed = s.loaded.fixed
  border : ∀ e, e ∈ t.border ↔ ∃ i, s.loaded.border.get i = some e
  retired : t.retired = s.loaded.retired
  slots : ∀ n, t.slot n =
    match s.loaded.retired.get n with
    | some e =>
      { populated := true, state := .retired, stand := .footprint e.theta e.phi e.cells,
        patrol := (s.loaded.patrol.get n).getD [], fault := none, chain := [] }
    | none =>
      { populated := false, state := .absent, stand := .lost, patrol := (s.loaded.patrol.get n).getD [], fault := none,
        chain := [] }
  cells : t.RebuiltCells
  pool : ∀ id, t.seg id = none
  free : t.free = List.finRange 1024
  batches : ∀ i, t.batches.get i = none
  loadError : t.loadError = false
  queue : t.queue = [] ∧ t.scanDue = false ∧ t.haltOut = [] ∧ t.startStop = false
  dwell : ∀ n, t.dwell.get n = none
  branches : ∀ b, t.branch b = .atReset
  census : t.census = .none
  links : ∀ k, t.link k = .atReset
  senses : ∀ n, t.sense n =
    if powerOn then { present := none, snapshot := none, watch := ⟨false, false, false⟩, changed := false }
    else { s.sense n with present := none, changed := false }
  stream : t.stream = none ∧ t.armed = none
  ports : ∀ p, ∃ r, t.port p = .atReset r ∧
    r = if ∃ q, q < p ∧ s.straps.get q = s.straps.get p then none else strapRole (s.straps.get p)
  timebase : t.timebase = none
  lines : t.stopLine = s.stopLine ∧ t.straps = s.straps
  pending : t.pending = s.pending

/-- What a grant makes of a segment: GRANTED, or ACTIVE when its order was sent, or it was a DWELL, in the same event (R80, R85, R97). -/
def State.Granted (s : State) (id : SegId) : Prop :=
  ∃ g, s.seg id = some g ∧ (g.state = .granted ∨ g.state = .active)

/-- A sector state may follow another in one event (R67, R68, R72); RUN follows by RESUME alone. -/
def sectorArrow : SectorState → SectorState → Bool
  | .starting, .hold => true
  | .starting, .stopped => true
  | .run, .hold => true
  | .run, .stopping => true
  | .run, .stopped => true
  | .hold, .stopping => true
  | .hold, .stopped => true
  | .stopping, .stopped => true
  | a, b => decide (a = b)

/-- What no event of the part changes outside resets, store writes, SET_TIMEBASE and the lines: the store, the working copies of
its lists, the straps, the lines, the timebase and the commands waiting. -/
structure State.SameSetting (s t : State) : Prop where
  store : t.store = s.store
  sectorId : t.sectorId = s.sectorId
  fixed : t.fixed = s.fixed
  border : t.border = s.border
  straps : t.straps = s.straps
  stopLine : t.stopLine = s.stopLine
  timebase : t.timebase = s.timebase
  resetHeld : t.resetHeld = s.resetHeld
  pending : t.pending = s.pending

/-! ### Invariants -/

/-- The limits that the writes keep true of the image (R182, R185). -/
structure StoreSound (i : Image) : Prop where
  fixedSet : i.fixed.Nodup ∧ i.fixed.length ≤ 128
  patrolSets : ∀ n l, i.patrol.get n = some l → l.Nodup ∧ 4 ≤ l.length ∧ l.length ≤ 24
  members : ∀ c, membership i.patrol c ≤ membershipLimit
  border : ∀ a b e f, a ≠ b → i.border.get a = some e → i.border.get b = some f →
    e.cell ≠ f.cell ∧ ¬ (e.link = f.link ∧ e.theirs = f.theirs)

/-- The limits of a port's notice queue, refusal list and held-over counts (R168, R176, R177). -/
structure PortSound (p : Port) : Prop where
  notices : p.notices.length ≤ noticeRoom
  refusals : (p.answers.filter fun a => !a.own).length ≤ refusalRoom
  counts : ∀ k, p.heldOver.get k ≤ 255

/-- The limits of the grant queue (R73): a slot at most once, and no pass-over count above 8. -/
structure QueueSound (q : List QEntry) : Prop where
  once : (q.map QEntry.slot).Nodup
  counts : ∀ e ∈ q, e.passOver ≤ barrierCount

/-- The timebase is unset or from 10 to 2,000 µs (R190). -/
def TimebaseSound (t : Option Nat) : Prop := ∀ us, t = some us → 10 ≤ us ∧ us ≤ 2000

/-- The invariant of the part. -/
structure State.Sound (s : State) : Prop where
  store : StoreSound s.store.image
  ports : ∀ p, PortSound (s.port p)
  queue : QueueSound s.queue
  timebase : TimebaseSound s.timebase

/-- A footprint: 1 to 8 distinct cells (R3). -/
def IsFootprint (l : List CellId) : Prop := l.Nodup ∧ 1 ≤ l.length ∧ l.length ≤ 8

/-- Every footprint that the part holds is one: in the stored and the working retired set (R182), where a robot stands (R3), and the
end list of a segment (R44). -/
structure State.FootprintsSound (s : State) : Prop where
  stored : ∀ n e, s.store.image.retired.get n = some e → IsFootprint e.cells
  working : ∀ n e, s.retired.get n = some e → IsFootprint e.cells
  standing : ∀ n a f l, (s.slot n).stand = .footprint a f l → IsFootprint l
  ends : ∀ id g, s.seg id = some g → (∃ d, g.body = .dwell d) ∨ IsFootprint g.body.ends

/-- Cell `c` lies in the footprint of the entry of slot `n` in the working retired set, and of no lower slot's (R39, R121). -/
def State.InRetired (s : State) (c : CellId) (n : SlotId) : Prop :=
  (∃ e, s.retired.get n = some e ∧ c ∈ e.cells) ∧ ∀ m e, m < n → s.retired.get m = some e → c ∉ e.cells

/-- The segments that are not FREE and pass `p`. -/
def State.liveCount (s : State) (p : Segment → Bool) : Nat := s.pool.items.countP (Option.any p)

/-- What a batch record counts, by its state (R51, R52). -/
structure State.BatchSound (s : State) (b : Batch) : Prop where
  opened : b.state = .opened → b.staging.Nodup ∧ b.loaded = b.staging.length ∧ b.pending = 0 ∧ b.done = 0 ∧ b.failed = 0 ∧
    b.skipped = 0 ∧ ∀ id, id ∈ b.staging ↔ ∃ g, s.seg id = some g ∧ g.batch = some b.id ∧ g.state = .staged
  committed : b.state ≠ .opened → b.staging = [] ∧ b.loaded = b.pending + b.done + b.failed + b.skipped ∧
    b.pending = s.liveCount fun g => decide (g.batch = some b.id)
  ended : (b.endOrder ≠ none ↔ b.state = .done ∨ b.state = .aborted) ∧ (b.state = .done ∨ b.state = .aborted → b.pending = 0)

/-- The segment store's records agree (R48, R50, R51, R52): a record is on the free list once or holds a segment; a segment that is
not STAGED stands once in its own slot's chain, of 32 at most; a batch counts its segments, and a segment is STAGED while its batch is OPEN; and a
branch has orders and poll-list entries of segments that stand in the chain of their drop's slot. -/
structure State.Ledger (s : State) : Prop where
  freeOnce : s.free.Nodup
  freeRecords : ∀ id, id ∈ s.free ↔ s.seg id = none
  chainOnce : ∀ n, (s.slot n).chain.Nodup ∧ (s.slot n).chain.length ≤ chainRoom
  chains : ∀ n id, id ∈ (s.slot n).chain ↔ ∃ g, s.seg id = some g ∧ g.slot = n ∧ g.state ≠ .staged
  batchIds : ∀ i j x y, s.batches.get i = some x → s.batches.get j = some y → x.id = y.id → i = j
  openOnce : ∀ i j x y, s.batches.get i = some x → s.batches.get j = some y → x.state = .opened → y.state = .opened → i = j
  batches : ∀ i x, s.batches.get i = some x → s.BatchSound x
  owned : ∀ id g b, s.seg id = some g → g.batch = some b →
    ∃ i x, s.batches.get i = some x ∧ x.id = b ∧ (g.state = .staged ↔ x.state = .opened)
  unowned : ∀ id g, s.seg id = some g → g.batch = none → g.state ≠ .staged
  queued : ∀ b o, .order o ∈ (s.branch b).queue → o.seg ∈ (s.slot (slotOf b o.drop)).chain
  setBack : ∀ b, ∀ o ∈ (s.branch b).backlog, o.seg ∈ (s.slot (slotOf b o.drop)).chain
  onBus : ∀ b o l, (s.branch b).bus = some { call := .entry (.order o), left := l } → o.seg ∈ (s.slot (slotOf b o.drop)).chain
  polled : ∀ b, ∀ e ∈ (s.branch b).poll, e.seg ∈ (s.slot (slotOf b e.drop)).chain

/-- A slot casts a shadow on a cell (R29): populated, not RETIRED, its position not known, the cell in its patrol set. -/
def Slot.casts (c : CellId) (sl : Slot) : Bool :=
  sl.populated && decide (sl.state ≠ .retired) && !sl.stand.known && decide (c ∈ sl.patrol)

/-- Shadow counts agree with the slots (R24, R29); an ABSENT slot stands nowhere and a RETIRED one at a known position, neither with
a segment in its chain (R5, R20, R22), and no segment is for an ABSENT slot (R55, R138). -/
structure State.FieldSound (s : State) : Prop where
  shadow : ∀ c, (s.cell c).shadow = s.slots.items.countP (Slot.casts c)
  patrols : ∀ c, (s.slots.items.countP fun sl => decide (c ∈ sl.patrol)) ≤ membershipLimit
  absent : ∀ n, (s.slot n).state = .absent → (s.slot n).populated = false ∧ (s.slot n).stand = .lost ∧ (s.slot n).chain = []
  present : ∀ n, (s.slot n).state ≠ .absent → (s.slot n).populated = true
  retired : ∀ n, (s.slot n).state = .retired → (s.slot n).stand.known = true ∧ (s.slot n).chain = []
  segments : ∀ id g, s.seg id = some g → (s.slot g.slot).state ≠ .absent

/-- Every ORPHAN cell is shadowed (R36). -/
def State.OrphansShadowed (s : State) : Prop := ∀ c k, (s.cell c).owner = .orphan k → (s.cell c).shadow ≠ 0

/-- No segment of an ABORTING batch is CHAINED (R62). -/
def State.NoneChainedAborting (s : State) : Prop :=
  ∀ id g i x, s.seg id = some g → s.batches.get i = some x → g.batch = some x.id → x.state = .aborting → g.state ≠ .chained

/-- No segment is GRANTED and unsent outside RUN and HOLD (R156). -/
def State.NoneGrantedStopped (s : State) : Prop :=
  s.sector ≠ .run → s.sector ≠ .hold → ∀ id g, s.seg id = some g → g.state ≠ .granted

/-- A DONE with this status does not fit the segment (R13, R102, R103): counts other than those ordered of a MOVE or TRIM, or no datum
found by a DATUM. -/
def SegBody.Missed (r : StatusReply) : SegBody → Prop
  | .move x y _ _ _ => r.dTheta ≠ x ∨ r.dPhi ≠ y
  | .trim x y _ _ _ => r.dTheta ≠ x ∨ r.dPhi ≠ y
  | .datum _ _ _ _ => r.datumFound = false
  | .dwell _ => False

/-- A STATUS to a call of purpose `w` fails the order of a segment (R13, R100, R102, R103). -/
def SegBody.FailsBy (body : SegBody) (w : Purpose) (r : StatusReply) : Prop :=
  match r.state with
  | .stopped => True
  | .done => body.Missed r
  | .running => w = .final
  | .idle => w = .final

/-- A STOPPED without contact under a halt mark, its counts in range of where the robot stood: no fault (R13, R103, R158). -/
def Stand.Interrupted (st : Stand) (haltMark : Bool) (r : StatusReply) : Prop :=
  r.state = .stopped ∧ r.senses.contact = false ∧ haltMark = true ∧
    ∀ p, st.pos = some p → movePos p.1 p.2 r.dTheta r.dPhi ≠ none

/-- A STOP in RUN or HOLD has led from `s` to `t`, what it leaves granted and withdrawn apart: a halt is requested on every branch, and
sent at once on a free bus (R105, R106, R155); every running dwell ends, its DWELL DONE, and its slot rests or waits (R86, R157); the
sector is STOPPING until no branch is halting (R72). -/
structure State.Halts (s t : State) : Prop where
  outstanding : ∀ b, b ∈ t.haltOut ↔ (t.branch b).halting = true
  stopped : (∀ b, (t.branch b).halting = false) → t.sector = .stopped
  stopping : ∀ b, (t.branch b).halting = true → t.sector = .stopping
  orders : ∀ b, (t.branch b).orders = []
  sent : ∀ b, (s.branch b).bus = none →
    (t.branch b).bus = some { call := .halt, left := 0 } ∧ (t.branch b).callAt = s.now ∧ (t.branch b).haltPlace = false ∧
    ((t.branch b).halting = true ↔ (t.branch b).poll ≠ []) ∧ (∀ e ∈ (t.branch b).poll, e.haltMark = true) ∧
    ∀ d, ((t.branch b).drops.get d).energized = false
  waits : s.Ledger → ∀ b x, (s.branch b).bus = some x →
    (∀ o, x.call = .entry (.order o) → (∀ y ∈ (s.branch b).orders, y.drop ≠ o.drop) ∧
      ∃ g, s.seg o.seg = some g ∧ g.state = .active ∧ ∀ d, g.body ≠ .dwell d) →
    (t.branch b).bus = some x ∧ (t.branch b).haltPlace = true ∧ (t.branch b).halting = true
  dwells : s.Ledger → ∀ n id g, s.activeDwell n = some (id, g) →
    t.seg id = none ∧
    ((∀ o ∈ (s.branch (branchOf n)).orders, o.drop ≠ dropOf n) → (∀ x ∈ s.grantedSegs n, x.2.state = .active → x.1 = id) →
      t.dwell.get n = none ∧ (t.slot n).stand = (s.slot n).stand ∧ (t.slot n).fault = (s.slot n).fault ∧
      (t.slot n).state = if t.inQueue n then .waiting else (s.slot n).stand.rest)
  done : s.Ledger → ∀ i x, s.batches.get i = some x → ∃ y, t.batches.get i = some y ∧ y.id = x.id ∧
    y.done = x.done + allSlots.countP fun n => (s.activeDwell n).any fun z => decide (z.2.batch = some x.id)

/-- The commands that may reset the part (R187). -/
def mayReset : Instr → Bool
  | .powerOn _ => true
  | .resetLineRelease _ => true
  | .portFrameSent _ => true
  | _ => false

/-- The commands that write a setting: the store, the timebase, the levels of the lines, or a reset. -/
def writesSetting : Instr → Bool
  | .storeRetired _ _ => true
  | .setTimebase _ _ _ => true
  | .writeStoreSectorId _ _ _ => true
  | .writeStoreFixedList _ _ _ => true
  | .writeStorePatrolSet _ _ _ _ => true
  | .writeStoreBorderEntry _ _ _ _ => true
  | .writeStoreRetiredEntry _ _ _ _ => true
  | .writeStoreClear _ _ => true
  | .stopLineAssert => true
  | .stopLineRelease => true
  | .powerOn _ => true
  | .resetLineAssert => true
  | .resetLineRelease _ => true
  | .portFrameSent _ => true
  | _ => false

end Sys2Proof.Machine
end

