-- ==== Sys2Proof/Certificates/Slice0/Obligations.lean ====
section
/-! DEFINITION. The statements for the provers, from the numbered rules of spec/. -/

open Sys2Proof Sys2Proof.Machine

/-! ### The queue of commands, reset, invariants -/

/-- A step carries out the command at the front of the queue, with the queue's rest; with no command waiting one microsecond passes
and nothing else (the model's choice, log 1). -/
def Obligations.StepRunsFrontCommand : Prop :=
  (∀ (c : Instr) (s : State), step { s with pending := c :: s.pending } = exec c s) ∧
  (∀ s : State, s.pending = [] → step s = .next { s with now := s.now + 1 })

/-- What power-on leaves of a blank part: UNCONFIGURED (R183, R184), every slot ABSENT (R22), every cell FREE without shadow (R41),
pool and batches free, branches OWN and idle (R90), links UNSYNCED and owing a sync (R116), no senses (R154). The ports' straps
and the released lines are the model's choice (log 5), the blank store too (log 6): the last clause says that POWER_ON makes this state of
any part with that store and those lines whose straps no RESET_SECTOR has read (the model's own counter of such readings, log 5). -/
def Obligations.ResetValues : Prop :=
  (State.reset.sector = .unconfigured ∧ State.reset.phase = .load ∧ State.reset.timebase = none ∧
    State.reset.loadError = false ∧ State.reset.queue = [] ∧ State.reset.stream = none ∧ State.reset.armed = none ∧
    State.reset.census = .none ∧ State.reset.startStop = false ∧ State.reset.haltOut = []) ∧
  (∀ n, State.reset.slot n =
    { populated := false, state := .absent, stand := .lost, patrol := [], fault := none, chain := [] }) ∧
  (∀ c, State.reset.cell c = { owner := .free, shadow := 0 }) ∧
  (∀ id, State.reset.seg id = none) ∧ (∀ i, State.reset.batches.get i = none) ∧
  (∀ b, (State.reset.branch b).access = .own ∧ (State.reset.branch b).queue = [] ∧ (State.reset.branch b).poll = [] ∧
    (State.reset.branch b).backlog = [] ∧ (State.reset.branch b).bus = none ∧ (State.reset.branch b).halting = false) ∧
  (∀ k, (State.reset.link k).state = .unsynced ∧ (State.reset.link k).syncOwed = true ∧
    (State.reset.link k).neighbour = none ∧ (State.reset.link k).timeouts = 0 ∧ (State.reset.link k).claim = none ∧
    (State.reset.link k).nextClaim = 0 ∧ (State.reset.link k).lastEnd = none) ∧
  (∀ n, State.reset.sense n =
    { present := none, snapshot := none, watch := ⟨false, false, false⟩, changed := false }) ∧
  (∀ p, (State.reset.port p).busy = false ∧ (State.reset.port p).inHand = none ∧ (State.reset.port p).answers = [] ∧
    (State.reset.port p).notices = [] ∧ ∀ k, (State.reset.port p).heldOver.get k = 0) ∧
  (∀ s : State, s.store = State.reset.store → s.stopLine = false → s.resetHeld = false → s.pending = [] → s.strapReads = 0 →
    exec (.powerOn ⟨[1, 2, 3], rfl⟩) s = .next State.reset)

/-- The invariants hold after reset: the limits of the store, the ports, the grant queue and the timebase (R73, R168, R176, R177, R182,
R190), the agreement of the segment store's records (R48, R50, R51, R52) and of slots and shadows (R29), and the orphans, aborting
batches and grants of R36, R62 and R156. -/
def Obligations.ResetIsSound : Prop :=
  State.reset.Sound ∧ State.reset.RolesDistinct ∧ State.reset.Ledger ∧ State.reset.FieldSound ∧ State.reset.FootprintsSound ∧
  State.reset.OrphansShadowed ∧ State.reset.NoneChainedAborting ∧ State.reset.NoneGrantedStopped

/-- The writes keep the store's image within the limits of R182 and the timebase within those of R190; every footprint, stored,
retired, stood in or ordered, is 1 to 8 distinct cells (R3, R44, R182); a slot stands in the grant queue at most once, and no
pass-over count exceeds 8 (R73, R75, R83); an ORPHAN cell is shadowed (R36). -/
def Obligations.SoundKept : Prop :=
  ∀ s t : State, step s = .next t →
    (StoreSound s.store.image → StoreSound t.store.image) ∧ (TimebaseSound s.timebase → TimebaseSound t.timebase) ∧
    (QueueSound s.queue → QueueSound t.queue) ∧ (s.FootprintsSound → t.FootprintsSound) ∧
    (s.OrphansShadowed → t.OrphansShadowed)

/-- A port holds at most 32 notices, 4 refusals and counts of 255 (R168, R176, R177), and no two ports share a role (R168). -/
def Obligations.PortSoundKept : Prop :=
  ∀ s t : State, step s = .next t →
    ((∀ p, PortSound (s.port p)) → ∀ p, PortSound (t.port p)) ∧ (s.RolesDistinct → t.RolesDistinct)

/-- A FIXED cell keeps that owner until the next reset (R25). -/
def Obligations.FixedCellsKept : Prop :=
  ∀ (c : Instr) (s t : State) (x : CellId), mayReset c = false → exec c s = .next t → (s.cell x).owner = .fixed →
    (t.cell x).owner = .fixed

/-- Store, working lists, straps, lines, timebase and waiting commands change by resets, store writes, SET_TIMEBASE and the lines
alone (R182, R185, R187, R190). -/
def Obligations.SettingsKept : Prop :=
  ∀ (c : Instr) (s : State), writesSetting c = false → ∃ t, exec c s = .next t ∧ s.SameSetting t

/-- The sector state moves along the arrows of R67, and into RUN by RESUME from HOLD or STOPPED alone (R67, R68, R70, R184). -/
def Obligations.SectorMoves : Prop :=
  ∀ (c : Instr) (s t : State), mayReset c = false → exec c s = .next t →
    sectorArrow s.sector t.sector = true ∨
      (t.sector = .run ∧ (s.sector = .hold ∨ s.sector = .stopped) ∧ ∃ p seq, c = .resume p seq)

/-- While the RESET line is asserted the part takes no frame and no timer: only the lines and power-on act (R187; the model's
reading of the timers, log 24). Assertion holds the part and cuts off every frame being sent. -/
def Obligations.ResetLineHolds : Prop :=
  (∀ s : State, ∃ t, exec .resetLineAssert s = .next t ∧
    t = { s with resetHeld := true, ports := t.ports, branches := t.branches } ∧
    (∀ p, t.port p = { s.port p with sending := none }) ∧ ∀ b, t.branch b = { s.branch b with bus := none }) ∧
  (∀ (c : Instr) (s : State), s.resetHeld = true → (∀ x, c ≠ .powerOn x) → c ≠ .resetLineAssert →
    (∀ x, c ≠ .resetLineRelease x) → c ≠ .stopLineAssert → c ≠ .stopLineRelease → exec c s = .next s)

/-- The three kinds of reset and the state each reset event builds (R187): power-on, the release of the RESET line, and RESET_SECTOR when
its answer OK has been sent whole. The straps are read anew at each (R168, R181): the first two commands carry them, RESET_SECTOR's
reset event takes them as a free value (the model's choice, log 5). The model's choice, too: POWER_ON leaves a part held by the RESET
line held (log 24), and a release without an assertion changes nothing (log 25). -/
def Obligations.ResetsRestart : Prop :=
  (∀ s x, ∃ t, exec (.powerOn x) s = .next t ∧ State.Restarted { s with straps := x } t true ∧ t.resetHeld = s.resetHeld) ∧
  (∀ s x, s.resetHeld = true →
    ∃ t, exec (.resetLineRelease x) s = .next t ∧ State.Restarted { s with straps := x } t false ∧ t.resetHeld = false) ∧
  (∀ s x, s.resetHeld = false → exec (.resetLineRelease x) s = .next s) ∧
  (∀ (s : State) p seq, s.Takes p .service .resetSector → ∃ t, exec (.resetSector p seq) s = .next t ∧
    s.Completes t p (ReqCode.resetSector.answer seq .ok .none) s) ∧
  (∀ (s : State) p seq f, s.resetHeld = false →
    (s.port p).sending = some (.answer (ReqCode.resetSector.answer seq .ok f)) →
    ∃ t, exec (.portFrameSent p) s = .next t ∧
      State.Restarted { s with straps := ⟨allPorts.map (Config.strapLevels s.strapReads), rfl⟩ } t false ∧ t.resetHeld = false)

/-- LOAD_PHASE_END of a part just reset: the four halts go out and are finished, and the start-up census begins behind them with the
roll calls of drops 0 to 7 in the eight places (R92, R93, R106, R109, R188); the halt holds its bus to the end of its window (the
model's choice, log 4). In a later phase LOAD_PHASE_END changes nothing (the model's choice, log 25). -/
def Obligations.LoadPhaseEnds : Prop :=
  (∀ s : State, s.resetHeld = false → s.phase = .load → s.sector ≠ .stopping → (∀ b, s.branch b = .atReset) →
    (∀ n, (s.slot n).state = .absent ∨ (s.slot n).state = .retired) →
    ∃ t, exec .loadPhaseEnd s = .next t ∧ t.phase = .census ∧ t.census = .startup ∧ s.SameField t ∧ s.SameSetting t ∧
      ∀ b, t.branch b = { Branch.atReset with
        bus := some { call := .halt, left := 0 }, callAt := s.now, queue := (allDrops.take 8).map .roll,
        rollsLeft := allDrops.drop 8 }) ∧
  (∀ s : State, s.phase ≠ .load → exec .loadPhaseEnd s = .next s)

/-! ### The request ports -/

/-- A request that the master list denies the port's role is answered ROLE; while UNCONFIGURED, one that R172 refuses is answered
UNCONFIGURED; either changes nothing else (R169, R172, R174). The model's reading: a WRITE_STORE with an item code of no item is a request
too, judged by its role before its form (R193; log 49). -/
def Obligations.RequestsRefusedAtThePort : Prop :=
  (∀ (i : Instr) (s : State) p c seq r, requestOf i = some (p, c, seq) → s.Ready p r → c.allowed r = false →
    ∃ t, exec i s = .next t ∧ s.Completes t p (c.answer seq .role .none) s) ∧
  (∀ (i : Instr) (s : State) p c seq r, requestOf i = some (p, c, seq) → s.Ready p r → c.allowed r = true →
    s.sector = .unconfigured → r ≠ .service → c.passesUnconfigured = false →
    ∃ t, exec i s = .next t ∧ s.Completes t p (c.answer seq .unconfigured .none) s)

/-- A request frame on a busy port adds its PORT_BUSY answer to a refusal list of fewer than 4 and changes nothing else (R170). -/
def Obligations.BusyPortRefuses : Prop :=
  ∀ (i : Instr) (s : State) (p : PortId) (code seq : Nat) (r : Role),
    ((∃ c : ReqCode, requestOf i = some (p, c, seq) ∧ code = c.number) ∨ i = .badRequestFrame p (.wrongForm code seq)) →
    s.resetHeld = false → (s.port p).role = some r → (s.port p).busy = true →
    ∃ t, exec i s = .next t ∧ t.lined p = s.lined p ++ s.refusal p code seq ∧ t.apart = s.apart ∧
      (t.port p).busy = true ∧ (t.port p).inHand = (s.port p).inHand ∧ (t.port p).role = (s.port p).role ∧
      (t.port p).subs = (s.port p).subs ∧ (s.port p).told <+: (t.port p).told ∧ ∀ q, q ≠ p → s.SamePort t q

/-- The end of a frame frees its line, and the end of the answer to the request in hand frees the port (R170). -/
def Obligations.SentFrameFreesThePort : Prop :=
  ∀ (s : State) p f, s.resetHeld = false → (s.port p).sending = some f → f.resets = false →
    ∃ t, exec (.portFrameSent p) s = .next t ∧ t.lined p = (s.port p).answers ∧ t.apart = s.apart ∧
      (f.own = true → (t.port p).busy = false ∧ (t.port p).inHand = none) ∧
      (f.own = false → (t.port p).busy = (s.port p).busy ∧ (t.port p).inHand = (s.port p).inHand) ∧
      (t.port p).role = (s.port p).role ∧ (t.port p).subs = (s.port p).subs ∧ (s.port p).notices <+: (t.port p).told ∧
      ∀ q, q ≠ p → s.SamePort t q

/-- The frame that a free line begins: the oldest answer; else the notice at the head, whose departure from an emptied queue brings
the summaries; beside a running stream the kind not sent last; the record read as the slot stands; else none (R143, R173, R178). -/
def Obligations.NextFrameBegins : Prop :=
  ∀ (s : State) p f r, s.resetHeld = false → s.RolesDistinct → (s.port p).role = some r → (s.port p).sending = some f →
    f.resets = false → ∃ t, exec (.portFrameSent p) s = .next t ∧
      (∀ a l, (s.port p).answers = a :: l →
        (t.port p).sending = some (.answer a) ∧ (t.port p).answers = l ∧ (t.port p).notices = (s.port p).notices) ∧
      (∀ nt l, (s.port p).answers = [] → (s.port p).notices = nt :: l → r ≠ .metro ∨ s.stream = none ∨
          (s.port p).lastKind = .record →
        (t.port p).sending = some (.notice nt) ∧ (t.port p).lastKind = .notice ∧
        (l ≠ [] → (t.port p).notices = l ∧ (t.port p).heldOver = (s.port p).heldOver) ∧
        (l = [] →
          (t.port p).notices = (NoticeKind.all.filter fun k =>
              (s.port p).subscribed k && decide ((s.port p).heldOver.get k.idx ≠ 0)).map
            fun k => .summary k ((s.port p).heldOver.get k.idx)) ∧
        (l = [] → ∀ k : NoticeKind, (t.port p).heldOver.get k.idx =
          if (s.port p).subscribed k then 0 else (s.port p).heldOver.get k.idx)) ∧
      (∀ x n, (s.port p).answers = [] → r = .metro → s.stream = some x → n.val = x.first + x.sent →
          (s.port p).notices = [] ∨ (s.port p).lastKind = .notice →
        (t.port p).sending = some (.record
          { index := x.sent, slot := n, state := (s.slot n).state, pos := (s.slot n).stand.pos, fault := (s.slot n).fault,
            tag := (s.activeSeg n).map (·.tag) }) ∧
        (t.port p).lastKind = .record ∧
        t.stream = if x.sent + 1 < x.count then some { x with sent := x.sent + 1 } else none) ∧
      ((s.port p).answers = [] → (s.port p).notices = [] → r ≠ .metro ∨ s.stream = none → (t.port p).sending = none)

/-- A raised notice on each port: queued when its kind is subscribed and the queue has room, else counted up to 255; STREAM_END on
the METRO port alone; nothing on a disabled port (R177). -/
def Obligations.NoticeOffered : Prop :=
  ∀ (s : State) (nt : Notice) (k : NoticeKind) (q : PortId), nt.kind = some k →
    ((s.port q).role = none → (s.raise nt).port q = s.port q) ∧
    (k = .streamEnd → (s.port q).role ≠ some .metro → (s.raise nt).port q = s.port q) ∧
    (∀ r, (s.port q).role = some r → (k = .streamEnd → r = .metro) →
      ((s.port q).subscribed k = true → (s.port q).notices.length < 32 →
        (s.raise nt).port q = { s.port q with notices := (s.port q).notices ++ [nt] }) ∧
      ((s.port q).subscribed k = false ∨ 32 ≤ (s.port q).notices.length →
        (s.raise nt).port q =
          { s.port q with heldOver := (s.port q).heldOver.set k.idx (min 255 ((s.port q).heldOver.get k.idx + 1)) }))

/-- SUBSCRIBE replaces the subscription set; the kinds newly in it with a held-over count have their SUMMARY queued, in increasing
kind number, as far as the queue of 32 has room, and their count zeroed; a kind that finds no room keeps its count; the answer is OK
(R179). -/
def Obligations.SubscribeReplaces : Prop :=
  ∀ (s : State) p seq (kinds : Byte) r due, s.Ready p r → s.RolesDistinct →
    due = (NoticeKind.all.filter fun k =>
      kinds.getLsbD k.idx.val && !(s.port p).subscribed k && decide ((s.port p).heldOver.get k.idx ≠ 0)).take
        (32 - (s.port p).notices.length) →
    ∃ t, exec (.subscribe p seq kinds) s = .next t ∧ s.Answers t p (ReqCode.subscribe.answer seq .ok .none) ∧
      t.apart = s.apart ∧ (t.port p).subs = kinds ∧ (t.port p).role = (s.port p).role ∧
      (∀ q, q ≠ p → s.SamePort t q) ∧
      (t.port p).notices = (s.port p).notices ++ due.map (fun k => .summary k ((s.port p).heldOver.get k.idx)) ∧
      ∀ k : NoticeKind, (t.port p).heldOver.get k.idx = if k ∈ due then 0 else (s.port p).heldOver.get k.idx

/-- QUERY_NOTICES answers with the asking port's notice state and changes nothing: no count is zeroed and no SUMMARY queued
(R180). -/
def Obligations.QueryNoticesAnswers : Prop :=
  ∀ (s : State) p seq r, s.Ready p r → s.RolesDistinct →
    ∃ t, exec (.queryNotices p seq) s = .next t ∧
      s.Completes t p (ReqCode.queryNotices.answer seq .ok (.notices
        { port := p, role := r, subs := (s.port p).subs, queued := (s.port p).notices.length,
          heldOver := (s.port p).heldOver.items })) s ∧
      (t.port p).heldOver = (s.port p).heldOver ∧ (t.port p).notices = (s.port p).notices

/-! ### Batches -/

/-- OPEN_BATCH: its refusals in their order, and the record it takes: a free one (the lowest, the model's choice, log 20), else the
one that ended earliest (R51, R53, R54). The sequence violation is stated in `SequenceViolations`. -/
def Obligations.OpenBatchJudged : Prop :=
  ∀ (s : State) p seq id, s.Takes p .plan .openBatch →
    (s.loadError = true → ∃ t, exec (.openBatch p seq id) s = .next t ∧
      s.Completes t p (ReqCode.openBatch.answer seq .loadErrorSet .none) s) ∧
    (s.loadError = false → s.openBatch = none →
      (id = 0 → ∃ t, exec (.openBatch p seq id) s = .next t ∧
        s.Completes t p (ReqCode.openBatch.answer seq .badArg .none) s) ∧
      (∀ b, id ≠ 0 → s.batchOf id = some b → ∃ t, exec (.openBatch p seq id) s = .next t ∧
        s.Completes t p (ReqCode.openBatch.answer seq .dupId .none) s) ∧
      (id ≠ 0 → s.batchOf id = none →
        ((∀ i, ∃ b, s.batches.get i = some b ∧ b.endOrder = none) → ∃ t, exec (.openBatch p seq id) s = .next t ∧
          s.Completes t p (ReqCode.openBatch.answer seq .tableFull .none) s) ∧
        (∀ i, (s.batches.get i = none ∧ ∀ j, j < i → s.batches.get j ≠ none) ∨
            ((∀ j, s.batches.get j ≠ none) ∧ ∃ a, s.endOrderAt i = some a ∧
              ∀ j b, j ≠ i → s.endOrderAt j = some b → a < b) →
          ∃ t, exec (.openBatch p seq id) s = .next t ∧
            s.Completes t p (ReqCode.openBatch.answer seq .ok .none)
              { s with batches := s.batches.set i (some
                { id := id, state := .opened, loaded := 0, pending := 0, done := 0, failed := 0, skipped := 0,
                  staging := [], endOrder := none }) })))

/-- The three sequence violations set the load-error flag and abandon the open batch, if there is one; CANCEL_OPEN abandons it without
the flag; ACK_LOAD_ERROR clears the flag (R56, R57). -/
def Obligations.SequenceViolations : Prop :=
  (∀ (s : State) p seq id b, s.Takes p .plan .openBatch → s.loadError = false → s.openBatch = some b →
    ∃ t u, exec (.openBatch p seq id) s = .next t ∧ s.Abandons u b ∧
      s.Completes t p (ReqCode.openBatch.answer seq .state .none) { u with loadError := true }) ∧
  (∀ (s : State) p seq id b, s.Takes p .plan .commitBatch → s.loadError = false → s.openBatch = some b → b.id ≠ id →
    ∃ t u, exec (.commitBatch p seq id) s = .next t ∧ s.Abandons u b ∧
      s.Completes t p (ReqCode.commitBatch.answer seq .noBatch .none) { u with loadError := true }) ∧
  (∀ (s : State) p seq id, s.Takes p .plan .commitBatch → s.loadError = false → s.openBatch = none →
    ∃ t, exec (.commitBatch p seq id) s = .next t ∧
      s.Completes t p (ReqCode.commitBatch.answer seq .noBatch .none) { s with loadError := true }) ∧
  (∀ (s : State) p seq d, s.Takes p .plan .loadSegment → s.loadError = false → s.openBatch = none →
    ∃ t, exec (.loadSegment p seq d) s = .next t ∧
      s.Completes t p (ReqCode.loadSegment.answer seq .noBatch .none) { s with loadError := true }) ∧
  (∀ (s : State) p seq, s.Takes p .plan .cancelOpen →
    (s.openBatch = none → ∃ t, exec (.cancelOpen p seq) s = .next t ∧
      s.Completes t p (ReqCode.cancelOpen.answer seq .noBatch .none) s) ∧
    ∀ b, s.openBatch = some b → ∃ t u, exec (.cancelOpen p seq) s = .next t ∧ s.Abandons u b ∧
      s.Completes t p (ReqCode.cancelOpen.answer seq .ok .none) u) ∧
  (∀ (s : State) p seq, s.Takes p .plan .ackLoadError → ∃ t, exec (.ackLoadError p seq) s = .next t ∧
    s.Completes t p (ReqCode.ackLoadError.answer seq .ok .none) { s with loadError := false })

/-- The fields of a descriptor that its kind reads, in range (R44): which descriptors give a slot and a segment. -/
def Obligations.DescriptorRanges : Prop :=
  ∀ d : Descriptor, (∃ x, Descriptor.read d = some x) ↔
    (d.slot ≤ 95 ∧
      ((d.kind = 4 ∧ 1 ≤ d.duration ∧ d.duration ≤ 60000) ∨
        (d.rate ≤ 3 ∧ 1 ≤ d.sweep.length ∧ d.sweep.length ≤ 16 ∧ d.sweep.Nodup ∧ (∀ c ∈ d.sweep, c ≤ 2047) ∧
          1 ≤ d.ends.length ∧ d.ends.length ≤ 8 ∧ d.ends.Nodup ∧ (∀ c ∈ d.ends, c ∈ d.sweep) ∧
          ((d.kind = 1 ∧ d.dTheta.natAbs ≤ 24000 ∧ d.dPhi.natAbs ≤ 12000) ∨
            (d.kind = 2 ∧ d.dTheta.natAbs ≤ 255 ∧ d.dPhi.natAbs ≤ 255) ∨
            (d.kind = 3 ∧ 1 ≤ d.axis ∧ d.axis ≤ 3)))))

/-- LOAD_SEGMENT: LOAD_ERROR_SET while the flag is set, a batch OPEN or not; with the flag clear and a batch OPEN its refusals in
their order, each changing nothing, and the segment it stages (R55, R56). -/
def Obligations.LoadSegmentJudged : Prop :=
  (∀ (s : State) p seq (d : Descriptor), s.Takes p .plan .loadSegment → s.loadError = true →
    ∃ t, exec (.loadSegment p seq d) s = .next t ∧
      s.Completes t p (ReqCode.loadSegment.answer seq .loadErrorSet .none) s) ∧
  ∀ (s : State) p seq (d : Descriptor) (b : Batch), s.Takes p .plan .loadSegment → s.openBatch = some b →
    (s.loadError = false → Descriptor.read d = none → ∃ t, exec (.loadSegment p seq d) s = .next t ∧
      s.Completes t p (ReqCode.loadSegment.answer seq .badArg .none) s) ∧
    (∀ n body, s.loadError = false → Descriptor.read d = some (n, body) →
      ((s.slot n).state = .absent → ∃ t, exec (.loadSegment p seq d) s = .next t ∧
        s.Completes t p (ReqCode.loadSegment.answer seq .absent .none) s) ∧
      ((s.slot n).state = .retired → ∃ t, exec (.loadSegment p seq d) s = .next t ∧
        s.Completes t p (ReqCode.loadSegment.answer seq .retired .none) s) ∧
      ((s.slot n).state ≠ .absent → (s.slot n).state ≠ .retired →
        ((∃ c ∈ body.sweep, c ∈ s.fixed) → ∃ t, exec (.loadSegment p seq d) s = .next t ∧
          s.Completes t p (ReqCode.loadSegment.answer seq .keepout .none) s) ∧
        ((∀ c ∈ body.sweep, c ∉ s.fixed) →
          ((∃ a ∈ body.sweep, ∃ c ∈ body.sweep, ∃ j k, s.remoteLink a = some j ∧ s.remoteLink c = some k ∧ j ≠ k) →
            ∃ t, exec (.loadSegment p seq d) s = .next t ∧
              s.Completes t p (ReqCode.loadSegment.answer seq .twoLinks .none) s) ∧
          ((∀ a ∈ body.sweep, ∀ c ∈ body.sweep, ∀ j k, s.remoteLink a = some j → s.remoteLink c = some k → j = k) →
            (s.free = [] → ∃ t, exec (.loadSegment p seq d) s = .next t ∧
              s.Completes t p (ReqCode.loadSegment.answer seq .poolEmpty .none) s) ∧
            ∀ id rest, s.free = id :: rest →
              (32 < s.stagedFor b n + (s.slot n).chain.length + 1 → ∃ t, exec (.loadSegment p seq d) s = .next t ∧
                s.Completes t p (ReqCode.loadSegment.answer seq .chainFull .none) s) ∧
              (s.stagedFor b n + (s.slot n).chain.length + 1 ≤ 32 → ∃ t, exec (.loadSegment p seq d) s = .next t ∧
                s.Completes t p (ReqCode.loadSegment.answer seq .ok (.segment id))
                  { s with
                    free := rest
                    pool := s.pool.set id (some
                      { slot := n, body := body, tag := d.tag, batch := some b.id, state := .staged,
                        continuation := false })
                    batches := s.batches.map (Option.map fun r =>
                      if r.id = b.id then { r with loaded := r.loaded + 1, staging := r.staging ++ [id] } else r) })))))

/-- COMMIT_BATCH: LOAD_ERROR_SET while the flag is set, a batch OPEN or not; of the open batch, refused for a staged slot that is
RETIRED and for a chain without room, each changing nothing; else every staged segment stands at its chain's tail in load order and the batch is RUNNING with its loaded
count pending, or, with nothing loaded, DONE at once (R58, R59, R60). -/
def Obligations.CommitJudged : Prop :=
  (∀ (s : State) p seq id, s.Takes p .plan .commitBatch → s.loadError = true → ∃ t, exec (.commitBatch p seq id) s = .next t ∧
    s.Completes t p (ReqCode.commitBatch.answer seq .loadErrorSet .none) s) ∧
  ∀ (s : State) p seq (b : Batch), s.Takes p .plan .commitBatch → s.openBatch = some b →
    (s.loadError = false →
      (∀ n, 0 < s.stagedFor b n → (s.slot n).state = .retired →
          (∀ m, m < n → 0 < s.stagedFor b m → (s.slot m).state ≠ .retired) →
        ∃ t, exec (.commitBatch p seq b.id) s = .next t ∧
          s.Completes t p (ReqCode.commitBatch.answer seq .retired (.slotNamed n)) s) ∧
      ((∀ n, 0 < s.stagedFor b n → (s.slot n).state ≠ .retired) →
        (∀ n, 0 < s.stagedFor b n → 32 < s.stagedFor b n + (s.slot n).chain.length →
            (∀ m, m < n → 0 < s.stagedFor b m → s.stagedFor b m + (s.slot m).chain.length ≤ 32) →
          ∃ t, exec (.commitBatch p seq b.id) s = .next t ∧
            s.Completes t p (ReqCode.commitBatch.answer seq .chainFull (.slotNamed n)) s) ∧
        ((∀ n, 0 < s.stagedFor b n → s.stagedFor b n + (s.slot n).chain.length ≤ 32) →
            (∀ i j x y, s.batches.get i = some x → s.batches.get j = some y → x.id = y.id → i = j) →
          ∃ t u, exec (.commitBatch p seq b.id) s = .next t ∧
            s.Completes t p (ReqCode.commitBatch.answer seq .ok .none) u ∧
            (∀ n, (u.slot n).chain = (s.slot n).chain ++
              b.staging.filter fun id => (s.seg id).any fun g => decide (g.slot = n)) ∧
            (∀ n, (u.slot n).stand = (s.slot n).stand ∧ (u.slot n).fault = (s.slot n).fault) ∧
            (∀ c n, (u.cell c).owner = .held n ↔ (s.cell c).owner = .held n) ∧ u.free = s.free ∧
            (b.loaded ≠ 0 → u.batchOf b.id = some { b with state := .running, pending := b.loaded, staging := [] }) ∧
            (b.loaded = 0 → ∃ o, u.batchOf b.id =
              some { b with state := .done, pending := 0, staging := [], endOrder := some o }))))

/-- ABORT_BATCH by the state of the record: NO_BATCH without one, STATE when OPEN, DONE or ABORTED, OK and nothing when ABORTING; of a
RUNNING batch OK, and the batch is ABORTING, or ABORTED with nothing pending (R61, R62). -/
def Obligations.AbortJudged : Prop :=
  ∀ (s : State) p seq id, s.Takes p .plan .abortBatch →
    (s.batchOf id = none → ∃ t, exec (.abortBatch p seq id) s = .next t ∧
      s.Completes t p (ReqCode.abortBatch.answer seq .noBatch .none) s) ∧
    (∀ b, s.batchOf id = some b → b.state = .opened ∨ b.state = .done ∨ b.state = .aborted →
      ∃ t, exec (.abortBatch p seq id) s = .next t ∧ s.Completes t p (ReqCode.abortBatch.answer seq .state .none) s) ∧
    (∀ b, s.batchOf id = some b → b.state = .aborting →
      ∃ t, exec (.abortBatch p seq id) s = .next t ∧ s.Completes t p (ReqCode.abortBatch.answer seq .ok .none) s) ∧
    (∀ b, s.batchOf id = some b → b.state = .running →
        (∀ i j x y, s.batches.get i = some x → s.batches.get j = some y → x.id = y.id → i = j) →
      ∃ t x, exec (.abortBatch p seq id) s = .next t ∧ s.AnswersLast t p (ReqCode.abortBatch.answer seq .ok .none) ∧
        t.batchOf id = some x ∧ x.loaded = b.loaded ∧
        ((x.state = .aborting ∧ x.pending ≠ 0) ∨ (x.state = .aborted ∧ x.pending = 0)) ∧
        (∀ n, (t.slot n).stand = (s.slot n).stand ∧ (t.slot n).chain.Sublist (s.slot n).chain) ∧ s.SameSetting t)

/-- After an accepted ABORT_BATCH no segment of the batch stands CHAINED in a chain, and none GRANTED without the continuation mark
(R61). Every step keeps the agreement of the segment store's records: the free list and the live segments make up the pool of 1,024
(R48), loaded is pending plus done plus failed plus skipped in every batch that is not OPEN (R52); and given it, no step leaves a
segment of an ABORTING batch CHAINED (R62). -/
def Obligations.AbortSkips : Prop :=
  (∀ (s t : State) p seq id b, s.Takes p .plan .abortBatch → s.batchOf id = some b → b.state = .running →
    exec (.abortBatch p seq id) s = .next t →
    ∀ n i g, i ∈ (t.slot n).chain → t.seg i = some g → g.batch = some id →
      g.state ≠ .chained ∧ (g.state = .granted → g.continuation = true)) ∧
  (∀ s t : State, s.Ledger → step s = .next t → t.Ledger ∧ (s.NoneChainedAborting → t.NoneChainedAborting)) ∧
  (∀ s : State, s.Ledger → s.free.length + s.liveCount (fun _ => true) = 1024 ∧
    ∀ i x, s.batches.get i = some x → x.state ≠ .opened → x.loaded = x.pending + x.done + x.failed + x.skipped)

/-! ### Reading -/

/-- QUERY_BATCH, QUERY_QUEUE, QUERY_SLOT, QUERY_BRANCH and QUERY_LINK answer with the records as they stand and change nothing (R23,
R65, R89, R114, R133). Left open: the rest state of an ABSENT or RETIRED slot (log 19). The model's choices: the records of
QUERY_BATCH(0) by their place in the table (log 52), the per-slot staging counts in increasing slot order (log 42), and times in whole
milliseconds, rounded down (log 37). The model's reading: in QUERY_BRANCH an entry that is no step order has no slot and its continuation
and ready marks clear, and a halt no drop (log 38), and a continuation that waits after a NAK-busy is not ready (log 43). In QUERY_QUEUE an entry shows
its claim link also when its pending-claim mark is clear (the model's choice, log 59). -/
def Obligations.QueriesAnswer : Prop :=
  (∀ (s : State) p seq id r, s.Takes p r .queryBatch →
    (id = 0 → ∃ t, exec (.queryBatch p seq id) s = .next t ∧
      s.Completes t p (ReqCode.queryBatch.answer seq .ok (.batchTable s.loadError s.free.length
        ((s.batches.items.filterMap fun b => b).map fun b =>
          { id := b.id, state := b.state, loaded := b.loaded, staged := b.staging.length, pending := b.pending,
            done := b.done, failed := b.failed, skipped := b.skipped }))) s) ∧
    (id ≠ 0 → s.batchOf id = none → ∃ t, exec (.queryBatch p seq id) s = .next t ∧
      s.Completes t p (ReqCode.queryBatch.answer seq .noBatch (.noBatch s.loadError s.free.length)) s) ∧
    (∀ b, id ≠ 0 → s.batchOf id = some b → ∃ t, exec (.queryBatch p seq id) s = .next t ∧
      s.Completes t p (ReqCode.queryBatch.answer seq .ok (.batch s.loadError s.free.length
        { id := b.id, state := b.state, loaded := b.loaded, staged := b.staging.length, pending := b.pending,
          done := b.done, failed := b.failed, skipped := b.skipped }
        ((allSlots.map fun n => (n, s.stagedFor b n)).filter fun x => decide (0 < x.2)))) s)) ∧
  (∀ (s : State) p seq, s.Takes p .service .queryQueue → ∃ t, exec (.queryQueue p seq) s = .next t ∧
    s.Completes t p (ReqCode.queryQueue.answer seq .ok (.queue s.sector s.stopLine (s.queue.map fun e =>
      { slot := e.slot, passOver := e.passOver, barrier := decide (8 ≤ e.passOver), pendingClaim := e.pendingClaim,
        backoff := e.backoff.isSome, claimLink := e.claimLink }))) s) ∧
  (∀ (s : State) p seq slot r, s.Ready p r →
    (95 < slot → ∃ t, exec (.querySlot p seq slot) s = .next t ∧
      s.Completes t p (ReqCode.querySlot.answer seq .badArg .none) s) ∧
    ∀ n : SlotId, slot = n.val → ∃ t v, exec (.querySlot p seq slot) s = .next t ∧
      s.Completes t p (ReqCode.querySlot.answer seq .ok (.slot v)) s ∧ v.state = (s.slot n).state ∧
      v.populated = (s.slot n).populated ∧ v.stand = (s.slot n).stand ∧ v.inQueue = s.inQueue n ∧
      v.fault = (s.slot n).fault ∧ v.chainLength = (s.slot n).chain.length ∧
      v.granted = (s.grantedSegs n).map (fun x => (x.2.tag, x.2.state)) ∧
      ((s.slot n).state ≠ .absent → (s.slot n).state ≠ .retired → v.rest = some (s.slot n).stand.rest)) ∧
  (∀ (s : State) p seq branch, s.Takes p .service .queryBranch →
    (3 < branch → ∃ t, exec (.queryBranch p seq branch) s = .next t ∧
      s.Completes t p (ReqCode.queryBranch.answer seq .badArg .none) s) ∧
    ∀ b : BranchId, branch = b.val → ∃ t v, exec (.queryBranch p seq branch) s = .next t ∧
      s.Completes t p (ReqCode.queryBranch.answer seq .ok (.branch v)) s ∧ v.access = (s.branch b).access ∧
      v.halting = (s.branch b).halting ∧ v.backlog = (s.branch b).backlog.map (fun o => slotOf b o.drop) ∧
      v.entries = (if (s.branch b).haltPlace then
          [{ kind := 3, drop := none, slot := none, continuation := false, ready := false }] else []) ++
        (s.branch b).queue.map (fun e => match e with
          | .order o =>
            { kind := 1, drop := some o.drop, slot := some (slotOf b o.drop), continuation := o.continuation,
              ready := s.ready b (.order o) }
          | .status d _ => { kind := 2, drop := some d, slot := none, continuation := false, ready := false }
          | .roll d => { kind := 4, drop := some d, slot := none, continuation := false, ready := false }
          | .direct d _ => { kind := 5, drop := some d, slot := none, continuation := false, ready := false }) ∧
      v.bus = (s.branch b).bus.map (fun x => match x.call with
        | .halt => (3, none, 1)
        | .entry (.order o) => (1, some o.drop, 3 - x.left)
        | .entry (.status d _) => (2, some d, 3 - x.left)
        | .entry (.roll d) => (4, some d, 3 - x.left)
        | .entry (.direct d _) => (5, some d, 1)) ∧
      v.poll = (s.branch b).poll.map (fun e =>
        { drop := e.drop, slot := slotOf b e.drop, tag := (s.seg e.seg).map (·.tag), haltMark := e.haltMark,
          finalMark := e.finalMark, msLeft := (s.stallAt e - s.now) / 1000 }) ∧
      v.drops = (s.branch b).drops.items.map (fun x => (x.energized, x.lastDone.map fun at' => (s.now - at') / 1000))) ∧
  (∀ (s : State) p seq link, s.Takes p .service .queryLink →
    (3 < link → ∃ t, exec (.queryLink p seq link) s = .next t ∧
      s.Completes t p (ReqCode.queryLink.answer seq .badArg .none) s) ∧
    ∀ k : LinkId, link = k.val → ∃ t v, exec (.queryLink p seq link) s = .next t ∧
      s.Completes t p (ReqCode.queryLink.answer seq .ok (.link v)) s ∧ v.state = (s.link k).state ∧
      v.syncOwed = (s.link k).syncOwed ∧ v.timeouts = (s.link k).timeouts ∧ v.neighbour = (s.link k).neighbour ∧
      v.claim = (s.link k).claim ∧ (∀ c, (s.link k).claim = some c → v.msLeft = (c.deadline - s.now) / 1000) ∧
      v.lastEnd = (s.link k).lastEnd ∧
      v.counts = [(s.cells.items.filter fun x => decide (x.owner = .blocked k)).length,
        (s.cells.items.filter fun x => decide (x.owner = .lent k)).length,
        (s.cells.items.filter fun x => decide (x.owner = .away k)).length,
        (s.cells.items.filter fun x => decide (x.owner = .orphan k)).length,
        (s.border.filter fun e => decide (e.link = k) && decide (e.home = .remote) &&
          (match (s.cell e.cell).owner with
            | .held _ => true
            | _ => false)).length])

/-- QUERY_CELL from SERVICE answers with the cell's record as it stands and changes nothing; BAD_ARG above 2,047 (R43). -/
def Obligations.QueryCellAnswers : Prop :=
  ∀ (s : State) p seq cell, s.Ready p .service →
    (2047 < cell → ∃ t, exec (.queryCell p seq cell) s = .next t ∧
      s.Completes t p (ReqCode.queryCell.answer seq .badArg .none) s) ∧
    ∀ c : CellId, cell = c.val → ∃ t, exec (.queryCell p seq cell) s = .next t ∧
      s.Completes t p (ReqCode.queryCell.answer seq .ok (.cell
        { owner := (s.cell c).owner, shadow := (s.cell c).shadow, fixed := decide (c ∈ s.fixed),
          border := s.border.find? fun e => e.cell.val == c.val })) s

/-! ### The sector: RESUME, HOLD, STOP -/

/-- RESUME from PLAN or SERVICE, by its table (R70). -/
def Obligations.ResumeJudged : Prop :=
  (∀ (s : State) p seq r, s.Ready p r → r ≠ .metro →
    (s.sector = .unconfigured → ∃ t, exec (.resume p seq) s = .next t ∧
      s.Completes t p (ReqCode.resume.answer seq .unconfigured .none) s) ∧
    (s.sector = .starting ∨ s.sector = .stopping → ∃ t, exec (.resume p seq) s = .next t ∧
      s.Completes t p (ReqCode.resume.answer seq .state .none) s) ∧
    (s.sector = .run ∨ s.sector = .hold ∨ s.sector = .stopped →
      (s.stopLine = true → ∃ t, exec (.resume p seq) s = .next t ∧
        s.Completes t p (ReqCode.resume.answer seq .stopActive .none) s) ∧
      (s.stopLine = false → s.timebase = none → ∃ t, exec (.resume p seq) s = .next t ∧
        s.Completes t p (ReqCode.resume.answer seq .noTimebase .none) s) ∧
      (s.stopLine = false → s.timebase ≠ none →
        (s.sector = .run → ∃ t, exec (.resume p seq) s = .next t ∧
          s.Completes t p (ReqCode.resume.answer seq .ok .none) s) ∧
        (s.sector ≠ .run → ∃ t, exec (.resume p seq) s = .next t ∧
          s.Completes t p (ReqCode.resume.answer seq .ok .none) { s with sector := .run, scanDue := true })))) ∧
  (∀ s : State, exec .stopLineRelease s = .next { s with stopLine := false })

/-- HOLD: in RUN the sector enters HOLD and no claim stays pending in the queue; in every other state OK and nothing (R69, R87). -/
def Obligations.HoldTaken : Prop :=
  (∀ (s : State) p seq r, s.Ready p r → s.sector ≠ .run → ∃ t, exec (.hold p seq) s = .next t ∧
    s.Completes t p (ReqCode.hold.answer seq .ok .none) s) ∧
  (∀ (s : State) p seq r, s.Ready p r → s.sector = .run → QueueSound s.queue → ∃ t, exec (.hold p seq) s = .next t ∧
    s.AnswersLast t p (ReqCode.hold.answer seq .ok .none) ∧ t.sector = .hold ∧
    (∀ e ∈ t.queue, e.pendingClaim = false) ∧
    (∀ n, (t.slot n).stand = (s.slot n).stand ∧ (t.slot n).chain.Sublist (s.slot n).chain ∧
      (t.slot n).fault = (s.slot n).fault) ∧ t.dwell = s.dwell ∧ t.senses = s.senses ∧ s.SameSetting t)

/-- STOP, by request or by the line: in RUN or HOLD the sector leaves for STOPPING, or STOPPED when the four halts finish in the same
event: a halt is requested on every branch, no step order stays waiting, and every running dwell ends, its DWELL DONE (R86, R105, R106,
R157; `State.Halts`); in STARTING the start-up stop mark is set; in the other states no robot, cell or queue entry changes (R72, R155,
R160). The model's reading: a halt that was sent holds its bus to the end of its window (log 4). -/
def Obligations.StopTaken : Prop :=
  (∀ (s : State) p seq r, s.Ready p r → ∃ t, exec (.stop p seq) s = .next t ∧
    s.AnswersLast t p (ReqCode.stop.answer seq .ok .none) ∧
    (s.sector = .run ∨ s.sector = .hold → (t.sector = .stopping ∨ t.sector = .stopped) ∧ s.Halts t) ∧
    (s.sector = .starting → t.startStop = true ∧ s.SameField t) ∧
    (s.sector = .stopped ∨ s.sector = .unconfigured → t.sector = s.sector) ∧
    (s.sector ≠ .run → s.sector ≠ .hold → s.SameField t) ∧ s.SameSetting t) ∧
  (∀ s : State, s.resetHeld = false → ∃ t, exec .stopLineAssert s = .next t ∧ t.stopLine = true ∧
    (s.sector = .run ∨ s.sector = .hold → (t.sector = .stopping ∨ t.sector = .stopped) ∧ s.Halts t) ∧
    (s.sector = .starting → t.startStop = true ∧ s.SameField t) ∧
    (s.sector = .stopped ∨ s.sector = .unconfigured → t.sector = s.sector) ∧
    (s.sector ≠ .run → s.sector ≠ .hold → s.SameField t) ∧ State.SameSetting { s with stopLine := true } t)

/-- What HOLD in RUN and STOP in RUN or HOLD leave granted: after HOLD each GRANTED segment carries the continuation mark (R87), after
STOP no segment is GRANTED and unsent (R156). No step leaves a segment GRANTED and unsent in STOPPING, STOPPED, STARTING or
UNCONFIGURED, given that the segment store's records agree (`Ledger`). -/
def Obligations.WithdrawalsMade : Prop :=
  (∀ (s t : State) p seq r, s.Ready p r → s.sector = .run → exec (.hold p seq) s = .next t →
    ∀ n x, x ∈ t.grantedSegs n → x.2.state = .granted → x.2.continuation = true) ∧
  (∀ (s t : State) p seq r, s.Ready p r → s.sector = .run ∨ s.sector = .hold → exec (.stop p seq) s = .next t →
    ∀ n x, x ∈ t.grantedSegs n → x.2.state ≠ .granted) ∧
  (∀ s t : State, s.Ledger → s.NoneGrantedStopped → step s = .next t → t.NoneGrantedStopped)

/-! ### Slots -/

/-- CLEAR_FAULT: BAD_ARG, ABSENT and STATE change nothing; a FAULTED slot loses its fault code and rests by its position, or, its
next segment now eligible, joins the queue at its tail, WAITING, which starts a scan in RUN (R18, R74, R75, R76). -/
def Obligations.ClearFaultJudged : Prop :=
  ∀ (s : State) p seq slot r, s.Takes p r .clearFault →
    (95 < slot → ∃ t, exec (.clearFault p seq slot) s = .next t ∧
      s.Completes t p (ReqCode.clearFault.answer seq .badArg .none) s) ∧
    ∀ n : SlotId, slot = n.val →
      ((s.slot n).state = .absent → ∃ t, exec (.clearFault p seq slot) s = .next t ∧
        s.Completes t p (ReqCode.clearFault.answer seq .absent .none) s) ∧
      ((s.slot n).state ≠ .absent → (s.slot n).state ≠ .faulted → ∃ t, exec (.clearFault p seq slot) s = .next t ∧
        s.Completes t p (ReqCode.clearFault.answer seq .state .none) s) ∧
      ((s.slot n).state = .faulted → s.inQueue n = false → ∃ t u, exec (.clearFault p seq slot) s = .next t ∧
        s.Completes t p (ReqCode.clearFault.answer seq .ok .none) u ∧
        u.slots = (s.updSlot n fun sl =>
          { sl with fault := none, state := if u.inQueue n then .waiting else sl.stand.rest }).slots ∧
        ((s.updSlot n fun sl => { sl with fault := none, state := sl.stand.rest }).eligible n = true →
          u.queue = s.queue ++ [.fresh n] ∧ u.scanDue = (s.scanDue || decide (s.sector = .run))) ∧
        ((s.updSlot n fun sl => { sl with fault := none, state := sl.stand.rest }).eligible n = false →
          u.queue = s.queue ∧ u.scanDue = s.scanDue) ∧
        ((s.slot n).chain = [] → u.queue = s.queue) ∧
        u = { s with slots := u.slots, queue := u.queue, scanDue := u.scanDue })

/-- RETIRE by its table, and UNRETIRE (R20, R21). -/
def Obligations.RetireJudged : Prop :=
  (∀ (s : State) p seq slot r, s.Takes p r .retire →
    (95 < slot → ∃ t, exec (.retire p seq slot) s = .next t ∧
      s.Completes t p (ReqCode.retire.answer seq .badArg .none) s) ∧
    ∀ n : SlotId, slot = n.val →
      ((s.slot n).state = .absent → ∃ t, exec (.retire p seq slot) s = .next t ∧
        s.Completes t p (ReqCode.retire.answer seq .absent .none) s) ∧
      ((s.slot n).state = .retired → ∃ t, exec (.retire p seq slot) s = .next t ∧
        s.Completes t p (ReqCode.retire.answer seq .retired .none) s) ∧
      ((s.slot n).state ≠ .absent → (s.slot n).state ≠ .retired →
        ((s.slot n).chain ≠ [] → ∃ t, exec (.retire p seq slot) s = .next t ∧
          s.Completes t p (ReqCode.retire.answer seq .busy .none) s) ∧
        ((s.slot n).chain = [] →
          ((s.slot n).state = .faulted → (∀ a f l, (s.slot n).stand ≠ .footprint a f l) →
            ∃ t, exec (.retire p seq slot) s = .next t ∧
              s.Completes t p (ReqCode.retire.answer seq .faulted .none) s) ∧
          ((s.slot n).state ≠ .faulted → (s.slot n).state ≠ .parked → ∃ t, exec (.retire p seq slot) s = .next t ∧
            s.Completes t p (ReqCode.retire.answer seq .state .none) s) ∧
          (∀ a f l, (s.slot n).state = .faulted ∨ (s.slot n).state = .parked → (s.slot n).stand = .footprint a f l →
            ∃ t, exec (.retire p seq slot) s = .next t ∧
              s.Completes t p (ReqCode.retire.answer seq .ok .none)
                (State.updSlot { s with retired := s.retired.set n (some { theta := a, phi := f, cells := l }) } n
                  fun sl => { sl with state := .retired, fault := none }))))) ∧
  (∀ (s : State) p seq slot, s.Takes p .service .unretire →
    (95 < slot → ∃ t, exec (.unretire p seq slot) s = .next t ∧
      s.Completes t p (ReqCode.unretire.answer seq .badArg .none) s) ∧
    ∀ n : SlotId, slot = n.val →
      ((s.slot n).state = .absent → ∃ t, exec (.unretire p seq slot) s = .next t ∧
        s.Completes t p (ReqCode.unretire.answer seq .absent .none) s) ∧
      ((s.slot n).state ≠ .absent → (s.slot n).state ≠ .retired → ∃ t, exec (.unretire p seq slot) s = .next t ∧
        s.Completes t p (ReqCode.unretire.answer seq .state .none) s) ∧
      ((s.slot n).state = .retired → ∃ t, exec (.unretire p seq slot) s = .next t ∧
        s.AnswersLast t p (ReqCode.unretire.answer seq .ok .none) ∧
        State.SameField (State.updSlot { s with retired := s.retired.set n none } n
          fun sl => { sl with state := .parked }) t ∧ s.SameSetting t))

/-! ### Metrology and positions -/

/-- MEASURE: its refusals, each changing nothing; and when accepted the position and footprint are those measured, the held set is
exactly the footprint, a shadow cast is lifted, and the slot is PARKED or WAITING (R19, R29, R37, R134, R135). -/
def Obligations.MeasureJudged : Prop :=
  (∀ (s : State) p seq slot theta phi (cells : List Nat), s.Takes p .metro .measure →
    (95 < slot ∨ 24000 < theta ∨ 12000 < phi ∨ cells.length < 1 ∨ 8 < cells.length ∨ ¬ cells.Nodup ∨
        (∃ c ∈ cells, 2047 < c) → ∃ t, exec (.measure p seq slot theta phi cells) s = .next t ∧
      s.Completes t p (ReqCode.measure.answer seq .badArg .none) s) ∧
    ∀ (n : SlotId) (l : List CellId), slot = n.val → theta ≤ 24000 → phi ≤ 12000 → cells = l.map Fin.val → l.Nodup →
        1 ≤ l.length → l.length ≤ 8 →
      ((s.slot n).state = .absent → ∃ t, exec (.measure p seq slot theta phi cells) s = .next t ∧
        s.Completes t p (ReqCode.measure.answer seq .absent .none) s) ∧
      ((s.slot n).state = .retired → ∃ t, exec (.measure p seq slot theta phi cells) s = .next t ∧
        s.Completes t p (ReqCode.measure.answer seq .retired .none) s) ∧
      ((s.slot n).state = .faulted → ∃ t, exec (.measure p seq slot theta phi cells) s = .next t ∧
        s.Completes t p (ReqCode.measure.answer seq .faulted .none) s) ∧
      ((s.slot n).state = .moving ∨ (s.slot n).state = .dwelling ∨
          ((s.slot n).state = .waiting ∧ s.claimPending n = true) →
        ∃ t, exec (.measure p seq slot theta phi cells) s = .next t ∧
          s.Completes t p (ReqCode.measure.answer seq .busy .none) s) ∧
      ((s.slot n).state = .unknown ∨ (s.slot n).state = .parked ∨ (s.slot n).state = .stranded ∨
          (s.slot n).state = .waiting → s.claimPending n = false →
          (∃ c ∈ l, c ∉ (s.slot n).patrol ∨ ¬ (((s.cell c).owner = .free ∧ s.shadowFromOthers n c = 0) ∨
            (s.cell c).owner = .held n ∨ ∃ k, (s.cell c).owner = .orphan k)) →
        ∃ t, exec (.measure p seq slot theta phi cells) s = .next t ∧
          s.Completes t p (ReqCode.measure.answer seq .conflict .none) s)) ∧
  (∀ (s : State) p seq (n : SlotId) (a : Theta) (f : Phi) (l : List CellId), s.Takes p .metro .measure → l.Nodup →
    1 ≤ l.length → l.length ≤ 8 →
    (s.slot n).state = .unknown ∨ (s.slot n).state = .parked ∨ (s.slot n).state = .stranded ∨
      (s.slot n).state = .waiting →
    (s.inQueue n = true ↔ (s.slot n).state = .waiting) → s.claimPending n = false → s.grantedSegs n = [] →
    (∀ c ∈ l, c ∈ (s.slot n).patrol ∧ (((s.cell c).owner = .free ∧ s.shadowFromOthers n c = 0) ∨
      (s.cell c).owner = .held n ∨ ∃ k, (s.cell c).owner = .orphan k)) →
    ∃ t u, exec (.measure p seq n.val a.val f.val (l.map Fin.val)) s = .next t ∧
      s.Completes t p (ReqCode.measure.answer seq .ok .none) u ∧
      u.slots = (s.updSlot n fun sl =>
        { sl with stand := .footprint a f l, state := if u.inQueue n then .waiting else .parked }).slots ∧
      (∀ c, (u.cell c).owner = .held n ↔ c ∈ l) ∧
      (∀ c m, m ≠ n → ((u.cell c).owner = .held m ↔ (s.cell c).owner = .held m)) ∧
      (∀ c, (u.cell c).shadow =
        if s.posKnown n = false ∧ c ∈ (s.slot n).patrol then (s.cell c).shadow - 1 else (s.cell c).shadow) ∧
      u.pool = s.pool ∧ u.free = s.free ∧ u.batches = s.batches ∧ u.senses = s.senses ∧ s.SameSetting u)

/-- SET_FOOTPRINT: its refusals in their order, and the footprint it sets: the held set is exactly the cells given, position and
shadow stay (R37, R137). -/
def Obligations.SetFootprintJudged : Prop :=
  ∀ (s : State) p seq slot (cells : List Nat) r, s.Takes p r .setFootprint →
    (95 < slot ∨ cells.length < 1 ∨ 8 < cells.length ∨ ¬ cells.Nodup ∨ (∃ c ∈ cells, 2047 < c) →
      ∃ t, exec (.setFootprint p seq slot cells) s = .next t ∧
        s.Completes t p (ReqCode.setFootprint.answer seq .badArg .none) s) ∧
    ∀ (n : SlotId) (l : List CellId), slot = n.val → cells = l.map Fin.val → l.Nodup → 1 ≤ l.length → l.length ≤ 8 →
      ((s.slot n).state = .absent → ∃ t, exec (.setFootprint p seq slot cells) s = .next t ∧
        s.Completes t p (ReqCode.setFootprint.answer seq .absent .none) s) ∧
      ((s.slot n).state = .retired → ∃ t, exec (.setFootprint p seq slot cells) s = .next t ∧
        s.Completes t p (ReqCode.setFootprint.answer seq .retired .none) s) ∧
      ((s.slot n).state = .faulted → ∃ t, exec (.setFootprint p seq slot cells) s = .next t ∧
        s.Completes t p (ReqCode.setFootprint.answer seq .faulted .none) s) ∧
      ((s.slot n).state = .moving ∨ (s.slot n).state = .dwelling ∨
          (((s.slot n).state = .unknown ∨ (s.slot n).state = .waiting) ∧ (s.slot n).stand = .lost) →
        ∃ t, exec (.setFootprint p seq slot cells) s = .next t ∧
          s.Completes t p (ReqCode.setFootprint.answer seq .state .none) s) ∧
      (∀ a f, (s.slot n).stand.pos = some (a, f) →
          (s.slot n).state = .parked ∨ (s.slot n).state = .stranded ∨ (s.slot n).state = .waiting →
        (s.claimPending n = true → ∃ t, exec (.setFootprint p seq slot cells) s = .next t ∧
          s.Completes t p (ReqCode.setFootprint.answer seq .busy .none) s) ∧
        (s.claimPending n = false → (∃ c ∈ l, (s.cell c).owner ≠ .held n) →
          ∃ t, exec (.setFootprint p seq slot cells) s = .next t ∧
            s.Completes t p (ReqCode.setFootprint.answer seq .notSubset .none) s) ∧
        (s.claimPending n = false → (∀ c ∈ l, (s.cell c).owner = .held n) →
            (s.inQueue n = true ↔ (s.slot n).state = .waiting) → s.grantedSegs n = [] →
          ∃ t u, exec (.setFootprint p seq slot cells) s = .next t ∧
            s.Completes t p (ReqCode.setFootprint.answer seq .ok .none) u ∧
            u.slots = (s.updSlot n fun sl =>
              { sl with stand := .footprint a f l, state := if u.inQueue n then .waiting else .parked }).slots ∧
            (∀ c, (u.cell c).owner = .held n ↔ c ∈ l) ∧
            (∀ c m, m ≠ n → ((u.cell c).owner = .held m ↔ (s.cell c).owner = .held m)) ∧
            (∀ c, (u.cell c).shadow = (s.cell c).shadow) ∧ u.pool = s.pool ∧ u.free = s.free ∧ u.batches = s.batches ∧
            u.senses = s.senses ∧ s.SameSetting u))

/-- LOAD_TRIM: its refusals in their order, and the trim it chains, with no batch; a resting slot with an empty chain joins the grant
queue WAITING (R138, R139). -/
def Obligations.LoadTrimJudged : Prop :=
  ∀ (s : State) p seq (d : Descriptor), s.Takes p .metro .loadTrim →
    (Descriptor.read d = none → ∃ t, exec (.loadTrim p seq d) s = .next t ∧
      s.Completes t p (ReqCode.loadTrim.answer seq .badArg .none) s) ∧
    (∀ n body, Descriptor.read d = some (n, body) →
      (body.isTrim = false → ∃ t, exec (.loadTrim p seq d) s = .next t ∧
        s.Completes t p (ReqCode.loadTrim.answer seq .badArg .none) s) ∧
      (body.isTrim = true →
        ((s.slot n).state = .absent → ∃ t, exec (.loadTrim p seq d) s = .next t ∧
          s.Completes t p (ReqCode.loadTrim.answer seq .absent .none) s) ∧
        ((s.slot n).state = .retired → ∃ t, exec (.loadTrim p seq d) s = .next t ∧
          s.Completes t p (ReqCode.loadTrim.answer seq .retired .none) s) ∧
        ((s.slot n).state = .faulted → ∃ t, exec (.loadTrim p seq d) s = .next t ∧
          s.Completes t p (ReqCode.loadTrim.answer seq .faulted .none) s) ∧
        ((s.slot n).state = .unknown → ∃ t, exec (.loadTrim p seq d) s = .next t ∧
          s.Completes t p (ReqCode.loadTrim.answer seq .state .none) s) ∧
        ((s.slot n).state = .parked ∨ (s.slot n).state = .waiting ∨ (s.slot n).state = .moving ∨
            (s.slot n).state = .dwelling ∨ (s.slot n).state = .stranded →
          ((∃ c ∈ body.sweep, c ∈ s.fixed) → ∃ t, exec (.loadTrim p seq d) s = .next t ∧
            s.Completes t p (ReqCode.loadTrim.answer seq .keepout .none) s) ∧
          ((∀ c ∈ body.sweep, c ∉ s.fixed) →
            ((∃ a ∈ body.sweep, ∃ c ∈ body.sweep, ∃ j k, s.remoteLink a = some j ∧ s.remoteLink c = some k ∧ j ≠ k) →
              ∃ t, exec (.loadTrim p seq d) s = .next t ∧
                s.Completes t p (ReqCode.loadTrim.answer seq .twoLinks .none) s) ∧
            ((∀ a ∈ body.sweep, ∀ c ∈ body.sweep, ∀ j k, s.remoteLink a = some j → s.remoteLink c = some k → j = k) →
              (s.free = [] → ∃ t, exec (.loadTrim p seq d) s = .next t ∧
                s.Completes t p (ReqCode.loadTrim.answer seq .poolEmpty .none) s) ∧
              ∀ id rest, s.free = id :: rest →
                (32 ≤ (s.slot n).chain.length → ∃ t, exec (.loadTrim p seq d) s = .next t ∧
                  s.Completes t p (ReqCode.loadTrim.answer seq .chainFull .none) s) ∧
                ((s.slot n).chain.length < 32 → ∃ t u, exec (.loadTrim p seq d) s = .next t ∧
                  s.Completes t p (ReqCode.loadTrim.answer seq .ok (.segment id)) u ∧ u.free = rest ∧
                  u.pool = s.pool.set id (some
                    { slot := n, body := body, tag := d.tag, batch := none, state := .chained, continuation := false }) ∧
                  (u.slot n).chain = (s.slot n).chain ++ [id] ∧ (∀ m, m ≠ n → u.slot m = s.slot m) ∧
                  u.batches = s.batches ∧ u.senses = s.senses ∧ s.SameSetting u ∧
                  ((s.slot n).chain = [] → (s.slot n).state = .parked ∨ (s.slot n).state = .stranded →
                    s.posKnown n = true → s.inQueue n = false →
                    (u.slot n).state = .waiting ∧ u.queue = s.queue ++ [.fresh n] ∧ u.cells = s.cells)))))))

/-- STREAM_POSITIONS, by its table (R142). -/
def Obligations.StreamPositionsJudged : Prop :=
  ∀ (s : State) p seq first count, s.Ready p .metro → s.RolesDistinct →
    (s.sector = .unconfigured → ∃ t, exec (.streamPositions p seq first count) s = .next t ∧
      s.Completes t p (ReqCode.streamPositions.answer seq .unconfigured .none) s ∧ t.stream = s.stream) ∧
    (s.sector ≠ .unconfigured →
      (95 < first ∨ count < 1 ∨ 96 < count ∨ 96 < first + count →
        ∃ t, exec (.streamPositions p seq first count) s = .next t ∧
          s.Completes t p (ReqCode.streamPositions.answer seq .badArg .none) s ∧ t.stream = s.stream) ∧
      (first ≤ 95 → 1 ≤ count → count ≤ 96 → first + count ≤ 96 →
        (s.stream ≠ none → ∃ t, exec (.streamPositions p seq first count) s = .next t ∧
          s.Completes t p (ReqCode.streamPositions.answer seq .streaming .none) s ∧ t.stream = s.stream) ∧
        (s.stream = none → ∃ t, exec (.streamPositions p seq first count) s = .next t ∧
          s.Completes t p (ReqCode.streamPositions.answer seq .ok .none) s ∧
          t.stream = some { first := first, count := count, sent := 0 })))

/-- STREAM_ARM sets the armed range, by the checks of R142 with no refusal for a run; STREAM_STOP clears run and armed range and is
answered OK; a batch's end starts the armed range as a run when none is present, and else leaves run and armed range (R144, R145). -/
def Obligations.StreamArmAndStop : Prop :=
  (∀ (s : State) p seq first count, s.Takes p .metro .streamArm → s.RolesDistinct →
    (95 < first ∨ count < 1 ∨ 96 < count ∨ 96 < first + count →
      ∃ t, exec (.streamArm p seq first count) s = .next t ∧
        s.Completes t p (ReqCode.streamArm.answer seq .badArg .none) s ∧ t.stream = s.stream) ∧
    (first ≤ 95 → 1 ≤ count → count ≤ 96 → first + count ≤ 96 →
      ∃ t, exec (.streamArm p seq first count) s = .next t ∧
        s.Completes t p (ReqCode.streamArm.answer seq .ok .none)
          { s with armed := some { first := first, count := count } } ∧ t.stream = s.stream)) ∧
  (∀ (s : State) p seq, s.Takes p .metro .streamStop → s.RolesDistinct →
    ∃ t, exec (.streamStop p seq) s = .next t ∧
      s.Completes t p (ReqCode.streamStop.answer seq .ok .none) { s with armed := none } ∧ t.stream = none ∧
      ∀ x, s.stream = some x → (s.port p).subscribed .streamEnd = true → (s.port p).notices.length < 32 →
        (t.port p).notices = (s.port p).notices ++ [.streamEnd x.sent true]) ∧
  (∀ (s : State) (b : Batch),
    (∀ x, s.armed = some x → s.stream = none →
      (s.endBatch b).stream = some { first := x.first, count := x.count, sent := 0 } ∧ (s.endBatch b).armed = none) ∧
    (s.armed = none ∨ s.stream ≠ none → (s.endBatch b).stream = s.stream ∧ (s.endBatch b).armed = s.armed))

/-! ### Senses -/

/-- READ_SENSE reads the present senses with their age, latches them and clears the change flag; CLEAR_CHANGE clears the flag and
tells it; SET_SENSE_WATCH replaces the watch set; BAD_ARG above slot 95 and for a sense value beyond the three (R149, R150,
R151). The age is in milliseconds, 65,535 at most (section 12.3), rounded down (the model's choice, log 37). -/
def Obligations.SenseRequestsJudged : Prop :=
  (∀ (s : State) p seq slot r, s.Takes p r .readSense →
    (95 < slot → ∃ t, exec (.readSense p seq slot) s = .next t ∧
      s.Completes t p (ReqCode.readSense.answer seq .badArg .none) s) ∧
    ∀ n : SlotId, slot = n.val →
      ((s.sense n).present = none → ∃ t, exec (.readSense p seq slot) s = .next t ∧
        s.Completes t p (ReqCode.readSense.answer seq .ok (.senses none (s.sense n).watch (s.sense n).changed)) s) ∧
      ∀ x at', (s.sense n).present = some (x, at') → ∃ t, exec (.readSense p seq slot) s = .next t ∧
        s.Completes t p (ReqCode.readSense.answer seq .ok
            (.senses (some (x, min 65535 ((s.now - at') / 1000))) (s.sense n).watch (s.sense n).changed))
          (s.updSense n fun y => { y with snapshot := some x, changed := false })) ∧
  (∀ (s : State) p seq slot, s.Takes p .metro .clearChange →
    (95 < slot → ∃ t, exec (.clearChange p seq slot) s = .next t ∧
      s.Completes t p (ReqCode.clearChange.answer seq .badArg .none) s) ∧
    ∀ n : SlotId, slot = n.val → ∃ t, exec (.clearChange p seq slot) s = .next t ∧
      s.Completes t p (ReqCode.clearChange.answer seq .ok (.changedBefore (s.sense n).changed))
        (s.updSense n fun y => { y with changed := false })) ∧
  (∀ (s : State) p seq slot (w : Byte) r, s.Takes p r .setSenseWatch →
    (95 < slot ∨ 8 ≤ w.toNat → ∃ t, exec (.setSenseWatch p seq slot w) s = .next t ∧
      s.Completes t p (ReqCode.setSenseWatch.answer seq .badArg .none) s) ∧
    ∀ n : SlotId, slot = n.val → w.toNat < 8 → ∃ t, exec (.setSenseWatch p seq slot w) s = .next t ∧
      s.Completes t p (ReqCode.setSenseWatch.answer seq .ok .none)
        (s.updSense n fun y => { y with watch := ⟨w.getLsbD 0, w.getLsbD 1, w.getLsbD 2⟩ }))

/-- A STATUS reply to any status call replaces the slot's present senses, and a mismatch in a watched sense sets the change flag;
to an idle call it does nothing else (R107, R146, R147, R148). A STATUS with no status call of its drop on the bus is discarded
(R91). -/
def Obligations.StatusTakesSenses : Prop :=
  (∀ (s : State) b d w l (r : StatusReply), s.resetHeld = false →
    (s.branch b).bus = some { call := .entry (.status d w), left := l } →
    ∃ t, exec (.status b d r) s = .next t ∧
      (t.sense (slotOf b d)).present = some (r.senses, s.now) ∧
      (t.sense (slotOf b d)).snapshot = (s.sense (slotOf b d)).snapshot ∧
      (t.sense (slotOf b d)).watch = (s.sense (slotOf b d)).watch ∧
      ((t.sense (slotOf b d)).changed = true ↔ (s.sense (slotOf b d)).changed = true ∨
        ∃ y, (s.sense (slotOf b d)).snapshot = some y ∧
          (((s.sense (slotOf b d)).watch.theta = true ∧ r.senses.theta ≠ y.theta) ∨
            ((s.sense (slotOf b d)).watch.phi = true ∧ r.senses.phi ≠ y.phi) ∨
            ((s.sense (slotOf b d)).watch.contact = true ∧ r.senses.contact ≠ y.contact))) ∧
      (∀ m, m ≠ slotOf b d → t.sense m = s.sense m) ∧ s.SameSetting t ∧
      (w = .idle → t.slots = s.slots ∧ t.cells = s.cells ∧ t.queue = s.queue ∧ t.batches = s.batches ∧
        t.dwell = s.dwell)) ∧
  (∀ (s : State) b d (r : StatusReply),
    (∀ w l, (s.branch b).bus ≠ some { call := .entry (.status d w), left := l }) → exec (.status b d r) s = .next s)

/-! ### Segments that run and end -/

/-- What a STATUS ends (R11, R13, R99, R102, R103, R104). A DONE with the ordered counts moves the robot and its footprint is the end
list, with other counts it is SHORT; a DATUM found makes the datumed axis or axes 0, one not found loses the position; a STOPPED is
CONTACT with a contact sense, SHORT without, and no fault behind a halt. A robot with other than its ordered counts stands on its
sweep at the counts executed, FAULTED COUNT_RANGE and lost where they lead out of range, and one that was lost stays lost. The drop's
last-done time is set by a final DONE, whatever the outcome (R90). RUNNING and IDLE end nothing but a final call. A failure SKIPS the
other segments of its batch in the chain (R63), a fault every TRIM (R64), and no other segment that is CHAINED. The model's reading: a
patrol-sweep DATUM that a halt stopped closes like any other order (log 47). -/
def Obligations.StatusEndsOrder : Prop :=
  ∀ (s : State) b d w l (r : StatusReply) (e : PollEntry) (g : Segment), s.resetHeld = false →
    (s.branch b).bus = some { call := .entry (.status d w), left := l } → w ≠ .idle →
    (s.branch b).pollOf d = some e → s.seg e.seg = some g → (s.slot (slotOf b d)).state ≠ .faulted →
    ∃ t, exec (.status b d r) s = .next t ∧
      (r.state = .running ∨ r.state = .idle → w = .poll → t.slots = s.slots ∧ t.cells = s.cells) ∧
      (r.state = .running ∨ r.state = .idle → w = .final → t.seg e.seg = none ∧ (t.slot (slotOf b d)).stand = .lost ∧
        (t.slot (slotOf b d)).fault = some .stalled) ∧
      ((t.branch b).drops.get d).lastDone =
        (if r.state = .done then some s.now else ((s.branch b).drops.get d).lastDone) ∧
      (∀ x y rate sweep ends p q, r.state = .done →
        g.body = .move x y rate sweep ends ∨ g.body = .trim x y rate sweep ends → r.dTheta = x → r.dPhi = y →
        (s.slot (slotOf b d)).stand.pos = some p → movePos p.1 p.2 x y = some q →
        t.seg e.seg = none ∧ (t.slot (slotOf b d)).stand = .footprint q.1 q.2 ends) ∧
      (∀ x y rate sweep ends p, r.state = .done →
        g.body = .move x y rate sweep ends ∨ g.body = .trim x y rate sweep ends → r.dTheta ≠ x ∨ r.dPhi ≠ y →
        (s.slot (slotOf b d)).stand.pos = some p →
        t.seg e.seg = none ∧
          (∀ q, movePos p.1 p.2 r.dTheta r.dPhi = some q → (t.slot (slotOf b d)).stand = .sweep q.1 q.2 sweep ∧
            (t.slot (slotOf b d)).fault = some .short) ∧
          (movePos p.1 p.2 r.dTheta r.dPhi = none → (t.slot (slotOf b d)).stand = .lost ∧
            (t.slot (slotOf b d)).fault = some .countRange)) ∧
      (∀ rate sweep ends, r.state = .done → g.body = .datum .both rate sweep ends → r.datumFound = true →
        t.seg e.seg = none ∧ (t.slot (slotOf b d)).stand = .footprint 0 0 ends) ∧
      (∀ rate sweep ends p, r.state = .done → g.body = .datum .theta rate sweep ends → r.datumFound = true →
        (s.slot (slotOf b d)).stand.pos = some p →
        t.seg e.seg = none ∧ (t.slot (slotOf b d)).stand = .footprint 0 p.2 ends) ∧
      (∀ rate sweep ends p, r.state = .done → g.body = .datum .phi rate sweep ends → r.datumFound = true →
        (s.slot (slotOf b d)).stand.pos = some p →
        t.seg e.seg = none ∧ (t.slot (slotOf b d)).stand = .footprint p.1 0 ends) ∧
      (∀ ax rate sweep ends, r.state = .done → g.body = .datum ax rate sweep ends → r.datumFound = false →
        t.seg e.seg = none ∧ (t.slot (slotOf b d)).stand = .lost ∧
          (t.slot (slotOf b d)).fault = some .datumMissing) ∧
      (∀ p q, r.state = .stopped → (s.slot (slotOf b d)).stand.pos = some p →
        movePos p.1 p.2 r.dTheta r.dPhi = some q →
        t.seg e.seg = none ∧ (t.slot (slotOf b d)).stand = .sweep q.1 q.2 g.body.sweep ∧
          (r.senses.contact = true → (t.slot (slotOf b d)).fault = some .contact ∧
            (s.sector = .run → t.sector = .hold)) ∧
          (r.senses.contact = false → e.haltMark = false → (t.slot (slotOf b d)).fault = some .short) ∧
          (r.senses.contact = false → e.haltMark = true →
            (t.slot (slotOf b d)).fault = (s.slot (slotOf b d)).fault)) ∧
      (∀ p, r.state = .stopped → (s.slot (slotOf b d)).stand.pos = some p → movePos p.1 p.2 r.dTheta r.dPhi = none →
        t.seg e.seg = none ∧ (t.slot (slotOf b d)).stand = .lost ∧ (t.slot (slotOf b d)).fault = some .countRange) ∧
      (r.state = .stopped → (s.slot (slotOf b d)).stand = .lost →
        t.seg e.seg = none ∧ (t.slot (slotOf b d)).stand = .lost ∧
          (r.senses.contact = true → (t.slot (slotOf b d)).fault = some .contact ∧
            (s.sector = .run → t.sector = .hold)) ∧
          (r.senses.contact = false → e.haltMark = false → (t.slot (slotOf b d)).fault = some .short) ∧
          (r.senses.contact = false → e.haltMark = true →
            (t.slot (slotOf b d)).fault = (s.slot (slotOf b d)).fault)) ∧
      (g.body.FailsBy w r → ∀ i h, i ∈ (s.slot (slotOf b d)).chain → i ≠ e.seg → s.seg i = some h →
        (∀ x, g.batch = some x → h.batch = some x → t.seg i = none) ∧
        (¬ (s.slot (slotOf b d)).stand.Interrupted e.haltMark r → h.body.isTrim = true → t.seg i = none) ∧
        (h.state = .chained → h.body.isTrim = false → h.batch = none ∨ h.batch ≠ g.batch → t.seg i ≠ none))

/-- ACK puts the drop of the order on the bus at the tail of the poll list, its stall limit counted from now; NAK-busy has the order
wait 20 ms with one attempt less, or after the third attempt closes it FAILED(STALLED), or under a halt FAILED(INTERRUPTED) with
no step made; either from another drop, or with no order on the bus, is discarded (R91, R97, R158; under a halt at the third
attempt the model's choice, log 10). The first sending of an order makes its segment ACTIVE and fixes its keep-energized mark: set,
with the continuation mark on the look-ahead, when that is GRANTED, each is a MOVE or a TRIM and their rate classes are equal, and
clear in any other case (R95, R97). The model's reading: the segment's own continuation mark clears as it becomes ACTIVE (R47; log 58). -/
def Obligations.OrderReplies : Prop :=
  (∀ (s : State) b d (o : Order) l, s.resetHeld = false →
    (s.branch b).bus = some { call := .entry (.order o), left := l } → o.drop = d →
    ∃ t, exec (.ack b d) s = .next t ∧
      (t.branch b).poll.map (fun e => (e.drop, e.seg, e.period, e.keep, e.ackTime, e.finalMark)) =
        (s.branch b).poll.map (fun e => (e.drop, e.seg, e.period, e.keep, e.ackTime, e.finalMark)) ++
          [(d, o.seg, o.period, o.keep.getD false, s.now, false)] ∧ s.SameField t ∧ s.SameSetting t) ∧
  (∀ (s : State) b d (o : Order) l, s.resetHeld = false →
    (s.branch b).bus = some { call := .entry (.order o), left := l } → o.drop = d →
    ∃ t, exec (.nakBusy b d) s = .next t ∧ s.SameSetting t ∧
      (∀ k, (s.branch b).halting = false → l = k + 1 → s.SameField t ∧
        { o with left := k, naked := true, wait := some (s.now + 20000) } ∈ (t.branch b).orders) ∧
      (∀ g, (s.branch b).halting = false → l = 0 → s.seg o.seg = some g → (s.slot (slotOf b d)).state ≠ .faulted →
        t.seg o.seg = none ∧ (t.slot (slotOf b d)).stand = .lost ∧ (t.slot (slotOf b d)).fault = some .stalled) ∧
      (∀ g p, (s.branch b).halting = true → s.seg o.seg = some g → (s.slot (slotOf b d)).stand.pos = some p →
        t.seg o.seg = none ∧ (t.slot (slotOf b d)).stand = .sweep p.1 p.2 g.body.sweep)) ∧
  (∀ (s : State) b d, (∀ o l, (s.branch b).bus = some { call := .entry (.order o), left := l } → o.drop ≠ d) →
    exec (.ack b d) s = .next s ∧ exec (.nakBusy b d) s = .next s) ∧
  (∀ (s : State) b (o : Order) g, o.keep = none → s.seg o.seg = some g →
    (∀ j h x, s.grantedSegs (slotOf b o.drop) = [(o.seg, g), (j, h)] → j ≠ o.seg → h.state = .granted →
      g.body.stepRate = some x → h.body.stepRate = some x →
      ((s.sendOrder b o).branch b).bus = some { call := .entry (.order { o with keep := some true }), left := o.left } ∧
      (s.sendOrder b o).seg o.seg = some { g with state := .active, continuation := false } ∧
      (s.sendOrder b o).seg j = some { h with continuation := true }) ∧
    ((∀ j h x, s.grantedSegs (slotOf b o.drop) = [(o.seg, g), (j, h)] → h.state = .granted → g.body.stepRate = some x →
        h.body.stepRate ≠ some x) →
      ((s.sendOrder b o).branch b).bus = some { call := .entry (.order { o with keep := some false }), left := o.left } ∧
      (s.sendOrder b o).seg o.seg = some { g with state := .active, continuation := false } ∧
      ∀ j, j ≠ o.seg → (s.sendOrder b o).seg j = s.seg j))

/-- The end of a reply window, 2 ms after the call was sent (R9, R91, R97, R101, R108, R109, R112, R192): a call with attempts left is
repeated; an order without reply is FAILED(NO_REPLY), or FAILED(STALLED) behind a NAK-busy; a silent poll-list drop is
FAILED(NO_REPLY); an idle silence faults a resting slot where it stands; a silence to a roll call is one result more for its branch,
changes nothing in the start-up census (so of a slot UNRETIREd before its roll call too, the model's choice, log 41), and in a
SERVICE CENSUS faults a slot that is not ABSENT, RETIRED or FAULTED where it stands; a direct frame is answered with the first 32
bytes received. The model's choices: the command carries the clock (log 1); nothing happens on a free bus (log 25); a halt's window
frees the bus (log 4), and a halt in the halt place is then sent (R92); the command carries the bytes of the reply (log 29); behind a NAK-busy the order is FAILED(STALLED) under a halt
too (log 57). -/
def Obligations.ReplyWindowEnds : Prop :=
  ∀ (s : State) b (received : List Byte), s.resetHeld = false →
    ((s.branch b).bus = none → exec (.replyWindowEnd b received) s = .next s) ∧
    (∀ x, (s.branch b).bus = some x → ∃ t, exec (.replyWindowEnd b received) s = .next t ∧ s.SameSetting t ∧
      t.now = max s.now ((s.branch b).callAt + 2000) ∧
      (x.call = .halt → s.SameField t ∧
        ((s.branch b).haltPlace = false → ∀ y, (t.branch b).bus = some y → y.call ≠ .halt) ∧
        ((s.branch b).haltPlace = true → (t.branch b).bus = some { call := .halt, left := 0 } ∧
          (t.branch b).haltPlace = false ∧ (t.branch b).callAt = t.now)) ∧
      (∀ e k, x = { call := .entry e, left := k + 1 } →
        (t.branch b).bus = some { call := .entry e, left := k } ∧ (t.branch b).callAt = t.now ∧ s.SameField t) ∧
      (∀ o g, x = { call := .entry (.order o), left := 0 } → s.seg o.seg = some g →
        (s.slot (slotOf b o.drop)).state ≠ .faulted →
        t.seg o.seg = none ∧ (t.slot (slotOf b o.drop)).stand = .lost ∧
          (t.slot (slotOf b o.drop)).fault = some (if o.naked then .stalled else .noReply)) ∧
      (∀ d w e g, x = { call := .entry (.status d w), left := 0 } → w ≠ .idle → (s.branch b).pollOf d = some e →
        s.seg e.seg = some g → (s.slot (slotOf b d)).state ≠ .faulted →
        t.seg e.seg = none ∧ (t.slot (slotOf b d)).stand = .lost ∧ (t.slot (slotOf b d)).fault = some .noReply) ∧
      (∀ d, x = { call := .entry (.status d .idle), left := 0 } →
        (s.slot (slotOf b d)).state = .unknown ∨ (s.slot (slotOf b d)).state = .parked ∨
          (s.slot (slotOf b d)).state = .waiting ∨ (s.slot (slotOf b d)).state = .stranded →
        (t.slot (slotOf b d)).state = .faulted ∧ (t.slot (slotOf b d)).fault = some .noReply ∧
          (t.slot (slotOf b d)).stand = (s.slot (slotOf b d)).stand ∧ t.inQueue (slotOf b d) = false) ∧
      (∀ d, x = { call := .entry (.roll d), left := 0 } →
        (s.phase ≠ .halt → (t.branch b).rollsDone = (s.branch b).rollsDone + 1) ∧
        (s.census ≠ .service → s.SameField t) ∧
        ((s.slot (slotOf b d)).state = .absent ∨ (s.slot (slotOf b d)).state = .retired ∨
          (s.slot (slotOf b d)).state = .faulted → s.SameField t) ∧
        (s.census = .service → (s.slot (slotOf b d)).state ≠ .absent → (s.slot (slotOf b d)).state ≠ .retired →
          (s.slot (slotOf b d)).state ≠ .faulted →
          (t.slot (slotOf b d)).state = .faulted ∧ (t.slot (slotOf b d)).fault = some .noReply ∧
            (t.slot (slotOf b d)).stand = (s.slot (slotOf b d)).stand ∧ t.inQueue (slotOf b d) = false)) ∧
      (∀ d bytes q i, x = { call := .entry (.direct d bytes), left := 0 } → s.RolesDistinct →
        (s.port q).role = some .service → (s.port q).inHand = some i →
        (∃ l, t.lined q = s.lined q ++
          [{ own := true, code := i.code, seq := i.seq, result := .ok, fields := .reply (received.take 32) }] ++ l) ∧
        s.SameField t))

/-- ROLL: the drop's slot, ABSENT, becomes UNKNOWN and populated and casts its shadow; any other slot stays; the branch has one result
more. A ROLL with no roll call of its drop on the bus is discarded (R8, R9, R29, R91, R109). The model's choice: a slot of the stored
retired set that SERVICE UNRETIREs before its roll call in the start-up census stays PARKED (log 41). -/
def Obligations.RollReported : Prop :=
  (∀ (s : State) b d l, s.resetHeld = false → s.phase ≠ .halt →
    (s.branch b).bus = some { call := .entry (.roll d), left := l } →
    ∃ t, exec (.roll b d) s = .next t ∧ (t.branch b).rollsDone = (s.branch b).rollsDone + 1 ∧ s.SameSetting t ∧
      ((s.slot (slotOf b d)).state = .absent → (s.slot (slotOf b d)).chain = [] → s.inQueue (slotOf b d) = false →
        t.slots = (s.updSlot (slotOf b d) fun sl => { sl with state := .unknown, populated := true }).slots ∧
        (∀ c, (t.cell c).owner = (s.cell c).owner ∧ (t.cell c).shadow =
          if c ∈ (s.slot (slotOf b d)).patrol then (s.cell c).shadow + 1 else (s.cell c).shadow) ∧
        t.queue = s.queue) ∧
      ((s.slot (slotOf b d)).state ≠ .absent → s.SameField t)) ∧
  (∀ (s : State) b d, (∀ l, (s.branch b).bus ≠ some { call := .entry (.roll d), left := l }) →
    exec (.roll b d) s = .next s)

/-- Frames discarded change nothing: on a port, every frame of a disabled one (R168) and a frame that fails its check (R169); on a
branch, a bad check or address (R91); on a border link, a bad check or form, a frame in the LOAD phase or from a sender that is not
acceptable (R117). A request of unknown code or wrong form is answered BAD_ARG (R169). -/
def Obligations.DiscardedFrames : Prop :=
  (∀ (s : State) b, exec (.branchFrameDiscarded b) s = .next s) ∧
  (∀ (s : State) k, exec (.borderFrameDiscarded k) s = .next s) ∧
  (∀ (s : State) k x n (cells a c : List Nat) r, s.phase = .load →
    exec (.claim k x n cells) s = .next s ∧ exec (.grant k x n) s = .next s ∧ exec (.refuse k x n r) s = .next s ∧
    exec (.release k x cells) s = .next s ∧ exec (.sync k x) s = .next s ∧ exec (.syncReport k x a c) s = .next s) ∧
  (∀ (s : State) k x n (cells a c : List Nat) r,
    (∃ y, (s.link k).neighbour = some y ∧ y ≠ x) ∨ ((s.link k).neighbour = none ∧ x = s.sectorId) →
    exec (.claim k x n cells) s = .next s ∧ exec (.grant k x n) s = .next s ∧ exec (.refuse k x n r) s = .next s ∧
    exec (.release k x cells) s = .next s ∧ exec (.syncReport k x a c) s = .next s) ∧
  (∀ (s : State) k x n (cells a c : List Nat),
    (cells.length = 0 ∨ 32 < cells.length → exec (.claim k x n cells) s = .next s) ∧
    (cells.length = 0 ∨ 256 < cells.length → exec (.release k x cells) s = .next s) ∧
    (256 < a.length ∨ 256 < c.length → exec (.syncReport k x a c) s = .next s)) ∧
  (∀ (i : Instr) (s : State) p c seq, requestOf i = some (p, c, seq) → (s.port p).role = none → exec i s = .next s) ∧
  (∀ (s : State) p b, (s.port p).role = none → exec (.badRequestFrame p b) s = .next s) ∧
  (∀ (s : State) p, exec (.badRequestFrame p .failedCheck) s = .next s) ∧
  (∀ (s : State) p code seq r, s.Ready p r →
    ∃ t, exec (.badRequestFrame p (.wrongForm code seq)) s = .next t ∧
      s.Completes t p { own := true, code := code, seq := seq, result := .badArg, fields := .none } s)

/-- The timers (R96, R97, R98, R100, R107): the settle ends; the NAK-busy waits of the drop end; a poll-list drop falls due,
or its call goes out in the event; the stall limit sets the final-call mark; a drop falls due for an idle call, or it goes out: no
slot, cell or queue entry changes. The end of a dwell closes the DWELL and leaves the robot where it stands (R86); the end of a
backoff lets its entry be judged again and starts a scan in RUN (R82). The model's choices: a timer's command carries the clock to
the timer's end (log 1), and a timer that is not running ends without effect (log 25). -/
def Obligations.TimersEnd : Prop :=
  (∀ (s : State) b d at', s.resetHeld = false → ((s.branch b).drops.get d).settling = true →
    ((s.branch b).drops.get d).lastDone = some at' →
    ∃ t, exec (.settleEnd b d) s = .next t ∧ ((t.branch b).drops.get d).settling = false ∧
      t.now = max s.now (at' + 40000) ∧ s.SameField t ∧ s.SameSetting t) ∧
  (∀ (s : State) b d o at', s.resetHeld = false → o ∈ (s.branch b).orders → o.drop = d → o.wait = some at' →
    ∃ t, exec (.nakBusyWaitEnd b d) s = .next t ∧ (∀ x ∈ (t.branch b).orders, x.drop = d → x.wait = none) ∧
      s.SameField t ∧ s.SameSetting t) ∧
  (∀ (s : State) b d e, s.resetHeld = false → (s.branch b).pollOf d = some e → e.due = false → e.finalMark = false →
    ∃ t, exec (.statusCallDue b d) s = .next t ∧ t.now = max s.now (e.lastCall + 20000) ∧ s.SameField t ∧
      s.SameSetting t ∧ ∃ x, (t.branch b).pollOf d = some x ∧ x.seg = e.seg ∧
        (x.due = true ∨ ∃ w, (t.branch b).bus = some { call := .entry (.status d w), left := 2 })) ∧
  (∀ (s : State) b d e, s.resetHeld = false → (s.branch b).pollOf d = some e → e.finalMark = false →
    ∃ t, exec (.stallLimit b d) s = .next t ∧ s.SameField t ∧ s.SameSetting t ∧
      (∀ g x y rate sweep ends, s.seg e.seg = some g → g.body = .move x y rate sweep ends ∨ g.body = .trim x y rate sweep ends →
        t.now = max s.now (e.ackTime + (2 * (max x.natAbs y.natAbs * e.period) + 100000))) ∧
      ∃ x, (t.branch b).pollOf d = some x ∧ x.seg = e.seg ∧ x.finalMark = true) ∧
  (∀ (s : State) b d at', s.resetHeld = false → ((s.branch b).drops.get d).idleTime = some at' →
    ((s.branch b).drops.get d).idleDue = false →
    ∃ t, exec (.idleCallDue b d) s = .next t ∧ t.now = max s.now (at' + 500000) ∧ s.SameField t ∧ s.SameSetting t ∧
      (((t.branch b).drops.get d).idleDue = true ∨
        (t.branch b).bus = some { call := .entry (.status d .idle), left := 2 })) ∧
  (∀ (s : State) b d, ((s.branch b).drops.get d).settling = false → exec (.settleEnd b d) s = .next s) ∧
  (∀ (s : State) b d, (s.branch b).pollOf d = none →
    exec (.statusCallDue b d) s = .next s ∧ exec (.stallLimit b d) s = .next s) ∧
  (∀ (s : State) n at' id g ms', s.resetHeld = false → s.dwell.get n = some at' → s.activeDwell n = some (id, g) →
    g.body = .dwell ms' →
    ∃ t, exec (.dwellTimerEnd n) s = .next t ∧ t.now = max s.now at' ∧ t.seg id = none ∧
      (∀ m, (t.slot m).stand = (s.slot m).stand ∧ (t.slot m).fault = (s.slot m).fault) ∧ t.senses = s.senses ∧
      s.SameSetting t) ∧
  (∀ (s : State) n, s.dwell.get n = none → exec (.dwellTimerEnd n) s = .next s) ∧
  (∀ (s : State) n e at', s.resetHeld = false → s.entry n = some e → e.backoff = some at' →
    ∃ t, exec (.backoffEnd n) s = .next t ∧ t.apart =
      State.apart { s with
        now := max s.now at'
        queue := s.queue.map fun x => if x.slot = n then { x with backoff := none } else x
        scanDue := s.scanDue || decide (s.sector = .run) }) ∧
  (∀ (s : State) n, s.entry n = none → exec (.backoffEnd n) s = .next s)

/-! ### The SERVICE requests to the branches -/

/-- TAKE_BRANCH and GIVE_BRANCH (R111, R113): the refusals; a branch with orders in flight is TAKING and the answer is deferred; a
branch with nothing on it is TAKEN and answered at once; no idle call waits behind a take (R107, R112; an idle call in the queue is
removed by the model's choice, log 51); a branch given back is OWN, and a scan starts in RUN. -/
def Obligations.TakeAndGiveBranch : Prop :=
  (∀ (s : State) p seq branch, s.Takes p .service .takeBranch →
    (3 < branch → ∃ t, exec (.takeBranch p seq branch) s = .next t ∧
      s.Completes t p (ReqCode.takeBranch.answer seq .badArg .none) s) ∧
    ∀ b : BranchId, branch = b.val →
      ((s.branch b).access ≠ .own ∨ s.census = .service ∨ s.phase ≠ .done →
        ∃ t, exec (.takeBranch p seq branch) s = .next t ∧
          s.Completes t p (ReqCode.takeBranch.answer seq .taken .none) s) ∧
      ((s.branch b).access = .own → s.census ≠ .service → s.phase = .done →
        ∃ t, exec (.takeBranch p seq branch) s = .next t ∧ s.SameField t ∧ s.SameSetting t ∧
          (∀ d, .status d .idle ∉ (t.branch b).queue) ∧
          ((s.branch b).poll ≠ [] → (t.branch b).access = .taking ∧ s.Defers t p .takeBranch seq) ∧
          ((s.branch b).poll = [] → (s.branch b).queue = [] → (s.branch b).backlog = [] → (s.branch b).bus = none →
            (s.branch b).haltPlace = false → (s.branch b).direct = none → (s.branch b).rollsLeft = [] →
            s.RolesDistinct →
            (t.branch b).access = .taken ∧ s.Answers t p (ReqCode.takeBranch.answer seq .ok .none)))) ∧
  (∀ (s : State) p seq branch, s.Takes p .service .giveBranch →
    (3 < branch → ∃ t, exec (.giveBranch p seq branch) s = .next t ∧
      s.Completes t p (ReqCode.giveBranch.answer seq .badArg .none) s) ∧
    ∀ b : BranchId, branch = b.val →
      ((s.branch b).access ≠ .taken → ∃ t, exec (.giveBranch p seq branch) s = .next t ∧
        s.Completes t p (ReqCode.giveBranch.answer seq .notTaken .none) s) ∧
      ((s.branch b).access = .taken → ∃ t, exec (.giveBranch p seq branch) s = .next t ∧
        s.Answers t p (ReqCode.giveBranch.answer seq .ok .none) ∧ (t.branch b).access = .own ∧ s.SameField t ∧
        s.SameSetting t ∧ (s.sector = .run → t.scanDue = true)))

/-- DIRECT_FRAME and CENSUS (R110, R112): the refusals, and what an accepted one begins, its answer deferred: the frame waits, is
queued or is on the bus; every branch has its 24 roll calls to make. -/
def Obligations.DirectFrameAndCensus : Prop :=
  (∀ (s : State) p seq branch drop (bytes : List Byte), s.Takes p .service .directFrame →
    (3 < branch ∨ 23 < drop ∨ bytes.length < 1 ∨ 32 < bytes.length →
      ∃ t, exec (.directFrame p seq branch drop bytes) s = .next t ∧
        s.Completes t p (ReqCode.directFrame.answer seq .badArg .none) s) ∧
    ∀ (b : BranchId) (d : DropId), branch = b.val → drop = d.val → 1 ≤ bytes.length → bytes.length ≤ 32 →
      ((s.branch b).access ≠ .taken → ∃ t, exec (.directFrame p seq branch drop bytes) s = .next t ∧
        s.Completes t p (ReqCode.directFrame.answer seq .notTaken .none) s) ∧
      ((s.branch b).access = .taken → ∃ t, exec (.directFrame p seq branch drop bytes) s = .next t ∧
        s.Defers t p .directFrame seq ∧ s.SameField t ∧ s.SameSetting t ∧
        ((t.branch b).direct = some (d, bytes) ∨ .direct d bytes ∈ (t.branch b).queue ∨
          (t.branch b).bus = some { call := .entry (.direct d bytes), left := 0 }))) ∧
  (∀ (s : State) p seq, s.Takes p .service .census →
    ((∃ n, (s.slot n).state = .moving ∨ (s.slot n).state = .dwelling) → ∃ t, exec (.census p seq) s = .next t ∧
      s.Completes t p (ReqCode.census.answer seq .busy .none) s) ∧
    ((∀ n, (s.slot n).state ≠ .moving ∧ (s.slot n).state ≠ .dwelling) →
      ((∃ b, (s.branch b).access ≠ .own) → ∃ t, exec (.census p seq) s = .next t ∧
        s.Completes t p (ReqCode.census.answer seq .taken .none) s) ∧
      ((∀ b, (s.branch b).access = .own) →
        (s.census ≠ .none ∨ s.phase ≠ .done → ∃ t, exec (.census p seq) s = .next t ∧
          s.Completes t p (ReqCode.census.answer seq .busy .none) s) ∧
        (s.census = .none → s.phase = .done → ∃ t, exec (.census p seq) s = .next t ∧
          s.Defers t p .census seq ∧ t.census = .service ∧ s.SameField t ∧ s.SameSetting t ∧
          ∀ b, (t.branch b).rollsDone = 0 ∧ ∀ d, d ∈ (t.branch b).rollsLeft ∨ .roll d ∈ (t.branch b).queue ∨
            (t.branch b).bus = some { call := .entry (.roll d), left := 2 }))))

/-! ### Grants -/

/-- A scan in RUN with an entry at the queue's head whose sweep cells are its slot's or FREE, without shadow from others: the head is
granted, every sweep cell is HELD by its slot, and the slot works (R11, R30, R76, R77, R78, R80). A head that needs AWAY cells of one
link with no claim outstanding has its FREE cells PENDING and its claim made on that link (R31, R81, R123). A head that cannot be
granted gains a count, of 8 at most, when the entry behind it is granted (R83), and as a barrier it bars an entry whose sweep shares
a cell with its own (R84). The model's reading: shadow from others on any sweep cell bars the grant, one that the slot holds included
(log 8), and a patrol sweep is judged without the FIXED cells (R28; log 61). Its choices: a claim for a patrol sweep lists the cells in the sweep's order (log 21); with no scan started, or outside RUN,
SCAN changes nothing (log 2). -/
def Obligations.ScanGrantsHead : Prop :=
  (∀ (s : State) e l id g, s.resetHeld = false → s.scanDue = true → s.sector = .run → QueueSound s.queue →
    s.queue = e :: l → s.firstUngranted e.slot = some (id, g) → (s.branch (branchOf e.slot)).access = .own →
    e.pendingClaim = false → e.backoff = none → s.eligible e.slot = true → s.endInRange e.slot g = true →
    (∀ c ∈ s.sweepOf e.slot g, ((s.cell c).owner = .free ∨ (s.cell c).owner = .held e.slot) ∧
      s.shadowFromOthers e.slot c = 0) →
    ∃ t, exec .scan s = .next t ∧ (∀ c ∈ s.sweepOf e.slot g, (t.cell c).owner = .held e.slot) ∧ t.Granted id ∧
      (t.slot e.slot).stand = (s.slot e.slot).stand ∧
      (s.grantedSegs e.slot = [] → (t.slot e.slot).state = g.body.workState) ∧ s.SameSetting t) ∧
  (∀ (s : State) e l id g k, s.resetHeld = false → s.scanDue = true → s.sector = .run → QueueSound s.queue →
    s.queue = e :: l → s.firstUngranted e.slot = some (id, g) → (s.branch (branchOf e.slot)).access = .own →
    e.pendingClaim = false → e.backoff = none → s.eligible e.slot = true → s.endInRange e.slot g = true →
    (∀ c ∈ s.sweepOf e.slot g, ((s.cell c).owner = .free ∨ (s.cell c).owner = .held e.slot ∨ (s.cell c).owner = .away k) ∧
      s.shadowFromOthers e.slot c = 0) →
    (∃ c ∈ s.sweepOf e.slot g, (s.cell c).owner = .away k) → (s.link k).claim = none →
    ∃ t away, exec .scan s = .next t ∧ s.SameSetting t ∧
      away = (s.sweepOf e.slot g).filter (fun c => decide ((s.cell c).owner = .away k)) ∧
      (t.link k).claim = some
        { number := (s.link k).nextClaim, slot := e.slot, seg := id, cells := away, theirs := away.map s.theirsOf,
          withdrawn := false, deadline := s.now + 50000 } ∧
      (t.link k).nextClaim = (s.link k).nextClaim + 1 ∧
      (t.link k).history = (s.link k).history.set (s.link k).nextClaim.toFin (away.map s.theirsOf) ∧
      (∃ m, (t.link k).sent = (s.link k).sent ++
        [(s.sectorId, .claim (s.link k).nextClaim (away.map s.theirsOf))] ++ m) ∧
      t.entry e.slot = some { e with pendingClaim := true, claimLink := some k } ∧
      ∀ c ∈ s.sweepOf e.slot g, (t.cell c).owner =
        if (s.cell c).owner = .free then .pending e.slot else (s.cell c).owner) ∧
  (∀ (s : State) e f l i j g h, s.resetHeld = false → s.scanDue = true → s.sector = .run → QueueSound s.queue →
    s.queue = e :: f :: l → s.firstUngranted e.slot = some (i, g) → s.firstUngranted f.slot = some (j, h) →
    (∀ x ∈ [e, f], (s.branch (branchOf x.slot)).access = .own ∧ x.pendingClaim = false ∧ x.backoff = none ∧
      s.eligible x.slot = true) →
    s.endInRange e.slot g = true → s.endInRange f.slot h = true →
    (∀ c ∈ s.sweepOf e.slot g, ∀ k, (s.cell c).owner ≠ .away k) →
    (∃ c ∈ s.sweepOf e.slot g, (∃ m, m ≠ e.slot ∧ (s.cell c).owner = .held m) ∨ s.shadowFromOthers e.slot c ≠ 0) →
    (∀ c ∈ s.sweepOf f.slot h, ((s.cell c).owner = .free ∨ (s.cell c).owner = .held f.slot) ∧
      s.shadowFromOthers f.slot c = 0) →
    ∃ t, exec .scan s = .next t ∧ s.SameSetting t ∧
      (e.passOver < 8 ∨ (∀ c ∈ s.sweepOf f.slot h, c ∉ s.sweepOf e.slot g) →
        t.Granted j ∧ t.entry e.slot = some { e with passOver := min 8 (e.passOver + 1) }) ∧
      (e.passOver = 8 → (∃ c ∈ s.sweepOf f.slot h, c ∈ s.sweepOf e.slot g) → l = [] →
        t.queue = s.queue ∧ t.cells = s.cells)) ∧
  (∀ s : State, s.scanDue = false ∨ s.sector ≠ .run → exec .scan s = .next s)

/-- A scan takes no cell from the slot that holds it, and moves no robot (R30, R78). Every step keeps the shadow counts in agreement
with the slots: each cell's count is that of the populated slots, not RETIRED, whose position is not known and whose patrol set
has the cell, and so 7 at most (R24, R29), given that the segment store's records agree and the store is within its limits. -/
def Obligations.ScanKeepsHeldCells : Prop :=
  (∀ s t : State, exec .scan s = .next t →
    (∀ c n, (s.cell c).owner = .held n → (t.cell c).owner = .held n) ∧
    ∀ n, (t.slot n).stand = (s.slot n).stand ∧ (t.slot n).chain = (s.slot n).chain) ∧
  (∀ s t : State, s.Ledger → StoreSound s.store.image → s.FieldSound → step s = .next t → t.FieldSound) ∧
  (∀ (s : State) c, s.FieldSound → (s.cell c).shadow ≤ 7)

/-! ### Border links -/

/-- CLAIM: of cells all LOCAL here, FREE and without shadow: they are LENT and the answer is GRANT; else no cell changes and the answer
is REFUSE, BLOCKED when a named cell is BLOCKED, BUSY otherwise, for a repeated cell too (R38, R129). -/
def Obligations.ClaimAnswered : Prop :=
  ∀ (s : State) k x n (cells : List Nat), s.resetHeld = false → s.phase ≠ .load → s.accepts k x false = true →
    1 ≤ cells.length → cells.length ≤ 32 →
    ∃ t, exec (.claim k x n cells) s = .next t ∧ t.slots = s.slots ∧ t.queue = s.queue ∧ s.SameSetting t ∧
      (t.link k).neighbour = some x ∧ (t.link k).timeouts = 0 ∧
      (cells.Nodup → (∀ i ∈ cells, ∃ c e, s.cellOn k i = some c ∧ s.borderOf c.val = some e ∧ e.home = .here ∧
          (s.cell c).owner = .free ∧ (s.cell c).shadow = 0) →
        (∃ l, (t.link k).sent = (s.link k).sent ++ [(s.sectorId, .grant n)] ++ l) ∧
        ∀ c, t.cell c = if c ∈ s.cellsOn k cells then { s.cell c with owner := .lent k } else s.cell c) ∧
      (¬ cells.Nodup → t.cells = s.cells ∧
        ∃ l, (t.link k).sent = (s.link k).sent ++ [(s.sectorId, .refuse n .busy)] ++ l) ∧
      (cells.Nodup → (∃ i ∈ cells, ∃ c, s.cellOn k i = some c ∧ (s.cell c).owner = .blocked k) → t.cells = s.cells ∧
        ∃ l, (t.link k).sent = (s.link k).sent ++ [(s.sectorId, .refuse n .blocked)] ++ l) ∧
      (cells.Nodup → (∀ i ∈ cells, ∀ c, s.cellOn k i = some c → (s.cell c).owner ≠ .blocked k) →
        (∃ i ∈ cells, ∀ c, s.cellOn k i = some c → (s.cell c).owner ≠ .free ∨ (s.cell c).shadow ≠ 0) →
        t.cells = s.cells ∧ ∃ l, (t.link k).sent = (s.link k).sent ++ [(s.sectorId, .refuse n .busy)] ++ l)

/-- GRANT for the claim outstanding: taken in RUN, its segment still the slot's first ungranted one, with every claimed cell still AWAY
(the model's choice, log 9), every other sweep cell still the slot's and no shadow from others, the sweep is HELD and the segment
GRANTED; a withdrawn claim's cells, and those of one that cannot be taken, go back in a RELEASE of the cells still AWAY, with a
backoff of 100 ms for an entry that still waits; a number that is not the outstanding claim's ends no claim, and the cells of its
history entry that are AWAY and not claimed now go back in a RELEASE (R32, R124, R125, R128). -/
def Obligations.GrantAnswered : Prop :=
  ∀ (s : State) k x n, s.resetHeld = false → s.phase ≠ .load → s.accepts k x false = true →
    (∀ c g, (s.link k).claim = some c → c.number = n → c.withdrawn = false → s.sector = .run →
      s.firstUngranted c.slot = some (c.seg, g) → (∀ y ∈ s.sweepOf c.slot g, s.claimPasses k c y = true) →
      ∃ t, exec (.grant k x n) s = .next t ∧ (t.link k).claim = none ∧ (t.link k).lastEnd = some (n, .granted) ∧
        (∀ y ∈ s.sweepOf c.slot g, (t.cell y).owner = .held c.slot) ∧ t.Granted c.seg ∧ s.SameSetting t) ∧
    (∀ c, (s.link k).claim = some c → c.number = n →
      c.withdrawn = true ∨ s.sector ≠ .run ∨ (∀ g, s.firstUngranted c.slot ≠ some (c.seg, g)) ∨
        (∃ g, s.firstUngranted c.slot = some (c.seg, g) ∧ ∃ y ∈ s.sweepOf c.slot g, s.claimPasses k c y = false) →
      ∃ t, exec (.grant k x n) s = .next t ∧ (t.link k).claim = none ∧ (t.link k).lastEnd = some (n, .released) ∧
        t.slots = s.slots ∧ s.SameSetting t ∧
        (∃ l, (t.link k).sent =
          ((s.sendRelease k (c.cells.filter fun y => decide ((s.cell y).owner = .away k))).link k).sent ++ l) ∧
        (c.withdrawn = true → t.queue = s.queue ∧ t.cells = s.cells) ∧
        (c.withdrawn = false → t.queue = s.queue.map (fun e =>
          if e.slot = c.slot then { e with pendingClaim := false, backoff := some (s.now + 100000) } else e) ∧
          ∀ y, t.cell y =
            if (s.cell y).owner = .pending c.slot then { s.cell y with owner := .free } else s.cell y)) ∧
    ((∀ c, (s.link k).claim = some c → c.number ≠ n) →
      ∃ t, exec (.grant k x n) s = .next t ∧ (t.link k).claim = (s.link k).claim ∧
        (t.link k).lastEnd = (s.link k).lastEnd ∧ s.SameField t ∧ s.SameSetting t ∧
        ∃ l, (t.link k).sent = ((s.sendRelease k (((s.border.filter fun e =>
            decide (e.link = k) && decide (e.theirs ∈ (s.link k).history.get n.toFin)).map (·.cell)).filter fun y =>
          decide ((s.cell y).owner = .away k) && !(s.link k).claim.any fun c => decide (y ∈ c.cells))).link k).sent ++ l)

/-- REFUSE ends the claim of its number, with a backoff of 100 ms for an entry that still waits, and is discarded for another number
(R82, R124, R126); RELEASE makes the named LENT cells FREE and ends the backoffs on its link (R39, R82, R130). -/
def Obligations.RefuseAndRelease : Prop :=
  (∀ (s : State) k x n reason, s.resetHeld = false → s.phase ≠ .load → s.accepts k x false = true →
    (∀ c, (s.link k).claim = some c → c.number = n →
      ∃ t, exec (.refuse k x n reason) s = .next t ∧ (t.link k).claim = none ∧
        (t.link k).lastEnd = some (n, match reason with
          | .busy => .refusedBusy
          | .blocked => .refusedBlocked) ∧
        t.slots = s.slots ∧ s.SameSetting t ∧
        (c.withdrawn = true → t.queue = s.queue ∧ t.cells = s.cells) ∧
        (c.withdrawn = false → t.queue = s.queue.map (fun e =>
          if e.slot = c.slot then { e with pendingClaim := false, backoff := some (s.now + 100000) } else e) ∧
          ∀ y, t.cell y =
            if (s.cell y).owner = .pending c.slot then { s.cell y with owner := .free } else s.cell y)) ∧
    ((∀ c, (s.link k).claim = some c → c.number ≠ n) →
      ∃ t, exec (.refuse k x n reason) s = .next t ∧ (t.link k).claim = (s.link k).claim ∧ s.SameField t ∧
        s.SameSetting t)) ∧
  (∀ (s : State) k x (cells : List Nat), s.resetHeld = false → s.phase ≠ .load → s.accepts k x false = true →
    1 ≤ cells.length → cells.length ≤ 256 →
    ∃ t, exec (.release k x cells) s = .next t ∧ t.slots = s.slots ∧ s.SameSetting t ∧
      (∀ c, t.cell c = if c ∈ s.cellsOn k cells ∧ (s.cell c).owner = .lent k then { s.cell c with owner := .free }
        else s.cell c) ∧
      t.queue = s.queue.map fun e =>
        if e.backoff.isSome && decide (e.claimLink = some k) then { e with backoff := none } else e)

/-- SYNC is answered with a SYNC_REPORT of the loans, after the AWAY cells in the footprints of retired slots that no claim names have
become HELD, and ends the claim outstanding on its link (R121). SYNC_REPORT ends the sync owed, brings the link UP and settles the
BLOCKED cells and the cells named as lent: HELD by a retired slot whose footprint has the cell, ORPHAN under a shadow, and else AWAY
still, in a RELEASE (R39, R122). The model's reading: a cell that several working retired footprints have is HELD by the lowest of
their slots (log 39). -/
def Obligations.SyncAnsweredAndApplied : Prop :=
  (∀ (s : State) k x, s.resetHeld = false → s.phase ≠ .load →
    ∃ t u l, exec (.sync k x) s = .next t ∧ (t.link k).neighbour = some x ∧ (t.link k).timeouts = 0 ∧
      (t.link k).claim = none ∧ t.slots = s.slots ∧ s.SameSetting t ∧
      (∀ c n, (s.cell c).owner = .away k → s.InRetired c n → (∀ y, (s.link k).claim = some y → c ∉ y.cells) →
        u.cell c = { s.cell c with owner := .held n }) ∧
      (∀ c, (s.cell c).owner ≠ .away k ∨ (∀ n, ¬ s.InRetired c n) ∨ (∃ y, (s.link k).claim = some y ∧ c ∈ y.cells) →
        State.cell u c = s.cell c) ∧
      (t.link k).sent = (s.link k).sent ++
        [(s.sectorId, .syncReport
          ((s.border.filter fun e => decide (e.link = k) && decide (e.home = .here) &&
            decide ((u.cell e.cell).owner = .lent k)).map (·.theirs))
          ((s.border.filter fun e => decide (e.link = k) && decide (e.home = .remote) &&
            (match (u.cell e.cell).owner with
              | .held _ => true
              | .orphan _ => true
              | _ => false)).map (·.theirs)))] ++ l ∧
      (∀ c, (s.link k).claim = some c → (t.link k).lastEnd = some (c.number, .timedOut)) ∧
      ((s.link k).claim = none → t.cells = u.cells ∧ t.queue = s.queue)) ∧
  (∀ (s : State) k x (lent borrowed : List Nat), s.resetHeld = false → s.phase ≠ .load → s.accepts k x false = true →
    lent.length ≤ 256 → borrowed.length ≤ 256 →
    ∃ t, exec (.syncReport k x lent borrowed) s = .next t ∧ (t.link k).state = .up ∧ (t.link k).syncOwed = false ∧
      (t.link k).syncTimer = none ∧ (t.link k).neighbour = some x ∧ (t.link k).claim = (s.link k).claim ∧
      t.slots = s.slots ∧ t.queue = s.queue ∧ s.SameSetting t ∧
      (∃ l, (t.link k).sent = ((s.sendRelease k ((s.border.map (·.cell)).filter fun c =>
        decide (c ∈ s.cellsOn k lent) && decide ((t.cell c).owner = .away k))).link k).sent ++ l) ∧
      (∀ c n, c ∈ s.cellsOn k lent → (s.cell c).owner = .away k → s.InRetired c n →
        t.cell c = { s.cell c with owner := .held n }) ∧
      ∀ c, c ∉ s.cellsOn k lent ∨ (s.cell c).owner ≠ .away k ∨ (∀ n, ¬ s.InRetired c n) →
        t.cell c =
          if (s.cell c).owner = .blocked k then
            { s.cell c with owner := if c ∈ s.cellsOn k borrowed then .lent k else .free }
          else if c ∈ s.cellsOn k lent ∧ (s.cell c).owner = .away k ∧ (s.cell c).shadow ≠ 0 then
            { s.cell c with owner := .orphan k }
          else s.cell c)

/-- The answer timer of a claim ends it TIMED OUT with a RELEASE of its cells, the sync timer of a link that owes a sync sends SYNC anew;
each counts as a timeout, and the third in a row takes the link DOWN (R119, R120, R127). The model's choices: a timer's command
carries the clock to the timer's end (log 1), a timer that is not running ends without effect (log 25), and so does the sync timer of
a link that owes no sync (log 45). -/
def Obligations.LinkTimersEnd : Prop :=
  (∀ (s : State) k c, s.resetHeld = false → (s.link k).claim = some c →
    ∃ t, exec (.claimAnswerTimeout k) s = .next t ∧ (t.link k).claim = none ∧
      (t.link k).lastEnd = some (c.number, .timedOut) ∧ t.now = max s.now c.deadline ∧ t.slots = s.slots ∧
      s.SameSetting t ∧ (∃ l, (t.link k).sent = ((s.sendRelease k c.cells).link k).sent ++ l) ∧
      ((s.link k).state = .down → (t.link k).state = .down ∧ (t.link k).timeouts = (s.link k).timeouts) ∧
      ((s.link k).state ≠ .down → (t.link k).timeouts = (s.link k).timeouts + 1 ∧
        (t.link k).state = if 3 ≤ (s.link k).timeouts + 1 then .down else (s.link k).state) ∧
      (c.withdrawn = false → t.queue = s.queue.map (fun e =>
          if e.slot = c.slot then { e with pendingClaim := false, backoff := some (max s.now c.deadline + 100000) }
          else e) ∧
        ∀ y, t.cell y =
          if (s.cell y).owner = .pending c.slot then { s.cell y with owner := .free } else s.cell y)) ∧
  (∀ (s : State) k, (s.link k).claim = none → exec (.claimAnswerTimeout k) s = .next s) ∧
  (∀ (s : State) k at', s.resetHeld = false → (s.link k).syncTimer = some at' → (s.link k).syncOwed = true →
    ∃ t, exec (.syncTimeout k) s = .next t ∧ (t.link k).syncOwed = true ∧
      (t.link k).syncTimer = some (max s.now at' + 50000) ∧ t.slots = s.slots ∧ s.SameSetting t ∧
      (∃ l, (t.link k).sent = (s.link k).sent ++ l ∧ (s.sectorId, BorderFrame.sync) ∈ l) ∧
      ((s.link k).state = .down → (t.link k).state = .down) ∧
      ((s.link k).state ≠ .down → (t.link k).timeouts = (s.link k).timeouts + 1 ∧
        (t.link k).state = if 3 ≤ (s.link k).timeouts + 1 then .down else (s.link k).state)) ∧
  (∀ (s : State) k, (s.link k).syncTimer = none ∨ (s.link k).syncOwed = false → exec (.syncTimeout k) s = .next s)

/-- RECLAIM_BORDER, by its table (R40, R132). -/
def Obligations.ReclaimJudged : Prop :=
  ∀ (s : State) p seq link, s.Takes p .service .reclaimBorder →
    (3 < link → ∃ t, exec (.reclaimBorder p seq link) s = .next t ∧
      s.Completes t p (ReqCode.reclaimBorder.answer seq .badArg .none) s) ∧
    ∀ k : LinkId, link = k.val →
      ((s.link k).state ≠ .down → ∃ t, exec (.reclaimBorder p seq link) s = .next t ∧
        s.Completes t p (ReqCode.reclaimBorder.answer seq .linkUp .none) s) ∧
      ((s.link k).state = .down → ∃ t u, exec (.reclaimBorder p seq link) s = .next t ∧
        s.Completes t p (ReqCode.reclaimBorder.answer seq .ok .none) u ∧
        u = { s with
          cells := u.cells
          links := s.links.upd k fun x => { x with neighbour := none }
          scanDue := s.scanDue || decide (s.sector = .run) } ∧
        ∀ c, u.cell c =
          if (s.cell c).owner = .blocked k ∨ (s.cell c).owner = .lent k then { s.cell c with owner := .free }
          else if (s.cell c).owner = .orphan k then { s.cell c with owner := .away k }
          else s.cell c)

/-! ### The store and the timebase -/

/-- An accepted write of the store: the item is written, the check computed anew, no working state changes, and the answer tells
how many patrol-set places hold a set and whether all 96 do; STORE_RETIRED copies the working retired set into the image and tells
its size, and is refused UNCONFIGURED in UNCONFIGURED (R182, R183, R184, R185, R186). -/
def Obligations.StoreWritten : Prop :=
  (∀ (s : State) p seq, s.Takes p .service .writeStore →
    (∀ id : SectorId, ∃ t, exec (.writeStoreSectorId p seq id.val) s = .next t ∧
      s.Writes t p seq { s.store.image with sectorId := id }) ∧
    (∀ l : List CellId, l.Nodup → l.length ≤ 128 →
      ∃ t, exec (.writeStoreFixedList p seq (l.map Fin.val)) s = .next t ∧
        s.Writes t p seq { s.store.image with fixed := l }) ∧
    (∀ n : SlotId, ∃ t, exec (.writeStorePatrolSet p seq n.val []) s = .next t ∧
      s.Writes t p seq { s.store.image with patrol := s.store.image.patrol.set n none }) ∧
    (∀ (n : SlotId) (l : List CellId), l.Nodup → 4 ≤ l.length → l.length ≤ 24 →
      (∀ c ∈ l, membership (s.store.image.patrol.set n (some l)) c ≤ 7) →
      ∃ t, exec (.writeStorePatrolSet p seq n.val (l.map Fin.val)) s = .next t ∧
        s.Writes t p seq { s.store.image with patrol := s.store.image.patrol.set n (some l) }) ∧
    (∀ i : Fin 256, ∃ t, exec (.writeStoreBorderEntry p seq i.val none) s = .next t ∧
      s.Writes t p seq { s.store.image with border := s.store.image.border.set i none }) ∧
    (∀ (i : Fin 256) (e : BorderEntry),
      (∀ j f, j ≠ i → s.store.image.border.get j = some f →
        f.cell ≠ e.cell ∧ ¬ (f.link = e.link ∧ f.theirs = e.theirs)) →
      ∃ t, exec (.writeStoreBorderEntry p seq i.val (some
          { cell := e.cell.val, link := e.link.val, theirs := e.theirs.val,
            home := if e.home = .here then 0 else 1 })) s = .next t ∧
        s.Writes t p seq { s.store.image with border := s.store.image.border.set i (some e) }) ∧
    (∀ n : SlotId, ∃ t, exec (.writeStoreRetiredEntry p seq n.val none) s = .next t ∧
      s.Writes t p seq { s.store.image with retired := s.store.image.retired.set n none }) ∧
    (∀ (n : SlotId) (e : RetiredEntry), e.cells.Nodup → 1 ≤ e.cells.length → e.cells.length ≤ 8 →
      ∃ t, exec (.writeStoreRetiredEntry p seq n.val (some
          { theta := e.theta.val, phi := e.phi.val, cells := e.cells.map Fin.val })) s = .next t ∧
        s.Writes t p seq { s.store.image with retired := s.store.image.retired.set n (some e) }) ∧
    (∃ t, exec (.writeStoreClear p seq) s = .next t ∧ s.Writes t p seq .blank)) ∧
  (∀ (s : State) p seq, s.Takes p .service .storeRetired →
    (s.sector = .unconfigured → ∃ t, exec (.storeRetired p seq) s = .next t ∧
      s.Completes t p (ReqCode.storeRetired.answer seq .unconfigured .none) s) ∧
    (s.sector ≠ .unconfigured → ∃ t, exec (.storeRetired p seq) s = .next t ∧
      s.Completes t p (ReqCode.storeRetired.answer seq .ok
          (.stored (s.retired.items.filter Option.isSome).length))
        { s with store :=
          { image := { s.store.image with retired := s.retired },
            check := Config.storeCheck { s.store.image with retired := s.retired } } }))

/-- A write of the store that R185 refuses, of an item code of no item too (R193; the model's reading, log 49), is answered BAD_ARG and
changes nothing. -/
def Obligations.WriteStoreRefuses : Prop :=
  ∀ (s : State) p seq, s.Takes p .service .writeStore →
    (∀ id, 63 < id → ∃ t, exec (.writeStoreSectorId p seq id) s = .next t ∧
      s.Completes t p (ReqCode.writeStore.answer seq .badArg .none) s) ∧
    (∀ cells : List Nat, 128 < cells.length ∨ ¬ cells.Nodup ∨ (∃ c ∈ cells, 2047 < c) →
      ∃ t, exec (.writeStoreFixedList p seq cells) s = .next t ∧
        s.Completes t p (ReqCode.writeStore.answer seq .badArg .none) s) ∧
    (∀ slot (cells : List Nat), 95 < slot ∨ (cells ≠ [] ∧ cells.length < 4) ∨ 24 < cells.length ∨ ¬ cells.Nodup ∨
        (∃ c ∈ cells, 2047 < c) →
      ∃ t, exec (.writeStorePatrolSet p seq slot cells) s = .next t ∧
        s.Completes t p (ReqCode.writeStore.answer seq .badArg .none) s) ∧
    (∀ (n : SlotId) (l : List CellId), l ≠ [] → (∃ c ∈ l, 7 < membership (s.store.image.patrol.set n (some l)) c) →
      ∃ t, exec (.writeStorePatrolSet p seq n.val (l.map Fin.val)) s = .next t ∧
        s.Completes t p (ReqCode.writeStore.answer seq .badArg .none) s) ∧
    (∀ place (e : RawBorder), 255 < place ∨ 2047 < e.cell ∨ 3 < e.link ∨ 2047 < e.theirs ∨ 1 < e.home →
      ∃ t, exec (.writeStoreBorderEntry p seq place (some e)) s = .next t ∧
        s.Completes t p (ReqCode.writeStore.answer seq .badArg .none) s) ∧
    (∀ (i j : Fin 256) (e f : BorderEntry), j ≠ i → s.store.image.border.get j = some f →
        f.cell = e.cell ∨ (f.link = e.link ∧ f.theirs = e.theirs) →
      ∃ t, exec (.writeStoreBorderEntry p seq i.val (some
          { cell := e.cell.val, link := e.link.val, theirs := e.theirs.val,
            home := if e.home = .here then 0 else 1 })) s = .next t ∧
        s.Completes t p (ReqCode.writeStore.answer seq .badArg .none) s) ∧
    (∀ slot (e : RawRetired), 95 < slot ∨ 24000 < e.theta ∨ 12000 < e.phi ∨ e.cells.length < 1 ∨ 8 < e.cells.length ∨
        ¬ e.cells.Nodup ∨ (∃ c ∈ e.cells, 2047 < c) →
      ∃ t, exec (.writeStoreRetiredEntry p seq slot (some e)) s = .next t ∧
        s.Completes t p (ReqCode.writeStore.answer seq .badArg .none) s) ∧
    (∀ place, 255 < place → ∃ t, exec (.writeStoreBorderEntry p seq place none) s = .next t ∧
      s.Completes t p (ReqCode.writeStore.answer seq .badArg .none) s) ∧
    (∀ slot, 95 < slot → ∃ t, exec (.writeStoreRetiredEntry p seq slot none) s = .next t ∧
      s.Completes t p (ReqCode.writeStore.answer seq .badArg .none) s) ∧
    ∃ t, exec (.badRequestFrame p (.unknownItem seq)) s = .next t ∧
      s.Completes t p (ReqCode.writeStore.answer seq .badArg .none) s

/-- SET_TIMEBASE from PLAN or SERVICE, by its table (R191). -/
def Obligations.SetTimebaseJudged : Prop :=
  ∀ (s : State) p seq us r, s.Ready p r → r ≠ .metro →
    (s.sector = .unconfigured → ∃ t, exec (.setTimebase p seq us) s = .next t ∧
      s.Completes t p (ReqCode.setTimebase.answer seq .unconfigured .none) s) ∧
    (s.sector ≠ .unconfigured →
      (us < 10 ∨ 2000 < us → ∃ t, exec (.setTimebase p seq us) s = .next t ∧
        s.Completes t p (ReqCode.setTimebase.answer seq .badArg .none) s) ∧
      (10 ≤ us → us ≤ 2000 →
        (∀ v, s.timebase = some v → ∃ t, exec (.setTimebase p seq us) s = .next t ∧
          s.Completes t p (ReqCode.setTimebase.answer seq .alreadySet (.timebase v)) s) ∧
        (s.timebase = none → ∃ t, exec (.setTimebase p seq us) s = .next t ∧
          s.Completes t p (ReqCode.setTimebase.answer seq .ok .none) { s with timebase := some us })))

/-! ### The lines -/

/-- A body in its envelope is received whole on every line (R192), and the frames that a part makes on a border link are read by its
neighbour as the commands they stand for (R117, R193, section 12.5). -/
def Obligations.FramesReadBack : Prop :=
  (∀ (l : LineKind) (body : List Byte), 2 ≤ body.length → body.length + 2 ≤ l.maxLength →
    receive l (envelope l body) = [.body body]) ∧
  (∀ (k : LinkId) (x : SectorId) (n : Byte) (r : RefuseReason) (a c : List CellId),
    (receive .border (borderBytes x (.grant n))).map (linkCommand k) = [.grant k x n] ∧
    (receive .border (borderBytes x (.refuse n r))).map (linkCommand k) = [.refuse k x n r] ∧
    (receive .border (borderBytes x .sync)).map (linkCommand k) = [.sync k x] ∧
    (a.length ≤ 32 →
      (receive .border (borderBytes x (.claim n a))).map (linkCommand k) = [.claim k x n (a.map Fin.val)]) ∧
    (a.length ≤ 256 →
      (receive .border (borderBytes x (.release a))).map (linkCommand k) = [.release k x (a.map Fin.val)]) ∧
    (a.length ≤ 256 → c.length ≤ 256 →
      (receive .border (borderBytes x (.syncReport a c))).map (linkCommand k) =
        [.syncReport k x (a.map Fin.val) (c.map Fin.val)]))
end

