-- ==== Sys2Proof/Laws/State.lean ====
section
/-! SUPPORT. Reading a table or a field of the state after an update: one lemma for each field and update. -/

namespace Sys2Proof

namespace Table
variable {n : Nat} {α β : Type}

@[simp] theorem get_set_self (t : Table n α) (i : Fin n) (a : α) : (t.set i a).get i = a := by
  simp [get, set]

@[simp] theorem get_set_ne (t : Table n α) {i j : Fin n} (a : α) (h : i ≠ j) : (t.set i a).get j = t.get j := by
  have h' : i.val ≠ j.val := fun e => h (Fin.ext e)
  simp [get, set, h']

theorem get_set (t : Table n α) (i j : Fin n) (a : α) : (t.set i a).get j = if i = j then a else t.get j := by
  by_cases h : i = j
  · subst h; simp
  · simp [h]

@[simp] theorem get_upd_self (t : Table n α) (i : Fin n) (f : α → α) : (t.upd i f).get i = f (t.get i) := by
  simp [upd]

@[simp] theorem get_upd_ne (t : Table n α) {i j : Fin n} (f : α → α) (h : i ≠ j) : (t.upd i f).get j = t.get j := by
  simp [upd, h]

theorem getElem_mapFrom (f : Nat → α → β) (k : Nat) (l : List α) (i : Nat) (h : i < l.length) :
    (mapFrom f k l)[i]'(by rw [length_mapFrom]; exact h) = f (k + i) l[i] := by
  induction l generalizing k i with
  | nil => simp at h
  | cons a l ih =>
    cases i with
    | zero => simp [mapFrom]
    | succ i =>
      simp only [List.length_cons, Nat.add_lt_add_iff_right] at h
      simp only [mapFrom, List.getElem_cons_succ]
      rw [ih (k + 1) i h]
      congr 1
      omega

@[simp] theorem get_mapIdx (f : Nat → α → β) (t : Table n α) (i : Fin n) : (t.mapIdx f).get i = f i.val (t.get i) := by
  have h := getElem_mapFrom f 0 t.items i.val (by rw [t.size]; exact i.isLt)
  simpa [get, mapIdx] using h

@[simp] theorem get_map (f : α → β) (t : Table n α) (i : Fin n) : (t.map f).get i = f (t.get i) := by
  simp [map]

@[simp] theorem get_fill (a : α) (i : Fin n) : (fill n a).get i = a := by
  simp [get, fill]

end Table

namespace Machine

variable (s : State)

/-! `State.updSlot` changes the field `slots` alone. -/

@[simp] theorem State.updSlot_store (n : SlotId) (f : Slot → Slot) : (s.updSlot n f).store = s.store := rfl
@[simp] theorem State.updSlot_sectorId (n : SlotId) (f : Slot → Slot) : (s.updSlot n f).sectorId = s.sectorId := rfl
@[simp] theorem State.updSlot_fixed (n : SlotId) (f : Slot → Slot) : (s.updSlot n f).fixed = s.fixed := rfl
@[simp] theorem State.updSlot_border (n : SlotId) (f : Slot → Slot) : (s.updSlot n f).border = s.border := rfl
@[simp] theorem State.updSlot_retired (n : SlotId) (f : Slot → Slot) : (s.updSlot n f).retired = s.retired := rfl
@[simp] theorem State.updSlot_cells (n : SlotId) (f : Slot → Slot) : (s.updSlot n f).cells = s.cells := rfl
@[simp] theorem State.updSlot_pool (n : SlotId) (f : Slot → Slot) : (s.updSlot n f).pool = s.pool := rfl
@[simp] theorem State.updSlot_free (n : SlotId) (f : Slot → Slot) : (s.updSlot n f).free = s.free := rfl
@[simp] theorem State.updSlot_batches (n : SlotId) (f : Slot → Slot) : (s.updSlot n f).batches = s.batches := rfl
@[simp] theorem State.updSlot_endCount (n : SlotId) (f : Slot → Slot) : (s.updSlot n f).endCount = s.endCount := rfl
@[simp] theorem State.updSlot_loadError (n : SlotId) (f : Slot → Slot) : (s.updSlot n f).loadError = s.loadError := rfl
@[simp] theorem State.updSlot_sector (n : SlotId) (f : Slot → Slot) : (s.updSlot n f).sector = s.sector := rfl
@[simp] theorem State.updSlot_queue (n : SlotId) (f : Slot → Slot) : (s.updSlot n f).queue = s.queue := rfl
@[simp] theorem State.updSlot_scanDue (n : SlotId) (f : Slot → Slot) : (s.updSlot n f).scanDue = s.scanDue := rfl
@[simp] theorem State.updSlot_dwell (n : SlotId) (f : Slot → Slot) : (s.updSlot n f).dwell = s.dwell := rfl
@[simp] theorem State.updSlot_haltOut (n : SlotId) (f : Slot → Slot) : (s.updSlot n f).haltOut = s.haltOut := rfl
@[simp] theorem State.updSlot_startStop (n : SlotId) (f : Slot → Slot) : (s.updSlot n f).startStop = s.startStop := rfl
@[simp] theorem State.updSlot_stopLine (n : SlotId) (f : Slot → Slot) : (s.updSlot n f).stopLine = s.stopLine := rfl
@[simp] theorem State.updSlot_branches (n : SlotId) (f : Slot → Slot) : (s.updSlot n f).branches = s.branches := rfl
@[simp] theorem State.updSlot_census (n : SlotId) (f : Slot → Slot) : (s.updSlot n f).census = s.census := rfl
@[simp] theorem State.updSlot_links (n : SlotId) (f : Slot → Slot) : (s.updSlot n f).links = s.links := rfl
@[simp] theorem State.updSlot_senses (n : SlotId) (f : Slot → Slot) : (s.updSlot n f).senses = s.senses := rfl
@[simp] theorem State.updSlot_stream (n : SlotId) (f : Slot → Slot) : (s.updSlot n f).stream = s.stream := rfl
@[simp] theorem State.updSlot_armed (n : SlotId) (f : Slot → Slot) : (s.updSlot n f).armed = s.armed := rfl
@[simp] theorem State.updSlot_straps (n : SlotId) (f : Slot → Slot) : (s.updSlot n f).straps = s.straps := rfl
@[simp] theorem State.updSlot_strapReads (n : SlotId) (f : Slot → Slot) : (s.updSlot n f).strapReads = s.strapReads := rfl
@[simp] theorem State.updSlot_ports (n : SlotId) (f : Slot → Slot) : (s.updSlot n f).ports = s.ports := rfl
@[simp] theorem State.updSlot_phase (n : SlotId) (f : Slot → Slot) : (s.updSlot n f).phase = s.phase := rfl
@[simp] theorem State.updSlot_timebase (n : SlotId) (f : Slot → Slot) : (s.updSlot n f).timebase = s.timebase := rfl
@[simp] theorem State.updSlot_resetHeld (n : SlotId) (f : Slot → Slot) : (s.updSlot n f).resetHeld = s.resetHeld := rfl
@[simp] theorem State.updSlot_now (n : SlotId) (f : Slot → Slot) : (s.updSlot n f).now = s.now := rfl
@[simp] theorem State.updSlot_pending (n : SlotId) (f : Slot → Slot) : (s.updSlot n f).pending = s.pending := rfl

/-! `State.updCells` changes the field `cells` alone. -/

@[simp] theorem State.updCells_store (f : Nat → Cell → Cell) : (s.updCells f).store = s.store := rfl
@[simp] theorem State.updCells_sectorId (f : Nat → Cell → Cell) : (s.updCells f).sectorId = s.sectorId := rfl
@[simp] theorem State.updCells_fixed (f : Nat → Cell → Cell) : (s.updCells f).fixed = s.fixed := rfl
@[simp] theorem State.updCells_border (f : Nat → Cell → Cell) : (s.updCells f).border = s.border := rfl
@[simp] theorem State.updCells_retired (f : Nat → Cell → Cell) : (s.updCells f).retired = s.retired := rfl
@[simp] theorem State.updCells_slots (f : Nat → Cell → Cell) : (s.updCells f).slots = s.slots := rfl
@[simp] theorem State.updCells_pool (f : Nat → Cell → Cell) : (s.updCells f).pool = s.pool := rfl
@[simp] theorem State.updCells_free (f : Nat → Cell → Cell) : (s.updCells f).free = s.free := rfl
@[simp] theorem State.updCells_batches (f : Nat → Cell → Cell) : (s.updCells f).batches = s.batches := rfl
@[simp] theorem State.updCells_endCount (f : Nat → Cell → Cell) : (s.updCells f).endCount = s.endCount := rfl
@[simp] theorem State.updCells_loadError (f : Nat → Cell → Cell) : (s.updCells f).loadError = s.loadError := rfl
@[simp] theorem State.updCells_sector (f : Nat → Cell → Cell) : (s.updCells f).sector = s.sector := rfl
@[simp] theorem State.updCells_queue (f : Nat → Cell → Cell) : (s.updCells f).queue = s.queue := rfl
@[simp] theorem State.updCells_scanDue (f : Nat → Cell → Cell) : (s.updCells f).scanDue = s.scanDue := rfl
@[simp] theorem State.updCells_dwell (f : Nat → Cell → Cell) : (s.updCells f).dwell = s.dwell := rfl
@[simp] theorem State.updCells_haltOut (f : Nat → Cell → Cell) : (s.updCells f).haltOut = s.haltOut := rfl
@[simp] theorem State.updCells_startStop (f : Nat → Cell → Cell) : (s.updCells f).startStop = s.startStop := rfl
@[simp] theorem State.updCells_stopLine (f : Nat → Cell → Cell) : (s.updCells f).stopLine = s.stopLine := rfl
@[simp] theorem State.updCells_branches (f : Nat → Cell → Cell) : (s.updCells f).branches = s.branches := rfl
@[simp] theorem State.updCells_census (f : Nat → Cell → Cell) : (s.updCells f).census = s.census := rfl
@[simp] theorem State.updCells_links (f : Nat → Cell → Cell) : (s.updCells f).links = s.links := rfl
@[simp] theorem State.updCells_senses (f : Nat → Cell → Cell) : (s.updCells f).senses = s.senses := rfl
@[simp] theorem State.updCells_stream (f : Nat → Cell → Cell) : (s.updCells f).stream = s.stream := rfl
@[simp] theorem State.updCells_armed (f : Nat → Cell → Cell) : (s.updCells f).armed = s.armed := rfl
@[simp] theorem State.updCells_straps (f : Nat → Cell → Cell) : (s.updCells f).straps = s.straps := rfl
@[simp] theorem State.updCells_strapReads (f : Nat → Cell → Cell) : (s.updCells f).strapReads = s.strapReads := rfl
@[simp] theorem State.updCells_ports (f : Nat → Cell → Cell) : (s.updCells f).ports = s.ports := rfl
@[simp] theorem State.updCells_phase (f : Nat → Cell → Cell) : (s.updCells f).phase = s.phase := rfl
@[simp] theorem State.updCells_timebase (f : Nat → Cell → Cell) : (s.updCells f).timebase = s.timebase := rfl
@[simp] theorem State.updCells_resetHeld (f : Nat → Cell → Cell) : (s.updCells f).resetHeld = s.resetHeld := rfl
@[simp] theorem State.updCells_now (f : Nat → Cell → Cell) : (s.updCells f).now = s.now := rfl
@[simp] theorem State.updCells_pending (f : Nat → Cell → Cell) : (s.updCells f).pending = s.pending := rfl

/-! `State.updSeg` changes the field `pool` alone. -/

@[simp] theorem State.updSeg_store (id : SegId) (f : Segment → Segment) : (s.updSeg id f).store = s.store := rfl
@[simp] theorem State.updSeg_sectorId (id : SegId) (f : Segment → Segment) : (s.updSeg id f).sectorId = s.sectorId := rfl
@[simp] theorem State.updSeg_fixed (id : SegId) (f : Segment → Segment) : (s.updSeg id f).fixed = s.fixed := rfl
@[simp] theorem State.updSeg_border (id : SegId) (f : Segment → Segment) : (s.updSeg id f).border = s.border := rfl
@[simp] theorem State.updSeg_retired (id : SegId) (f : Segment → Segment) : (s.updSeg id f).retired = s.retired := rfl
@[simp] theorem State.updSeg_slots (id : SegId) (f : Segment → Segment) : (s.updSeg id f).slots = s.slots := rfl
@[simp] theorem State.updSeg_cells (id : SegId) (f : Segment → Segment) : (s.updSeg id f).cells = s.cells := rfl
@[simp] theorem State.updSeg_free (id : SegId) (f : Segment → Segment) : (s.updSeg id f).free = s.free := rfl
@[simp] theorem State.updSeg_batches (id : SegId) (f : Segment → Segment) : (s.updSeg id f).batches = s.batches := rfl
@[simp] theorem State.updSeg_endCount (id : SegId) (f : Segment → Segment) : (s.updSeg id f).endCount = s.endCount := rfl
@[simp] theorem State.updSeg_loadError (id : SegId) (f : Segment → Segment) : (s.updSeg id f).loadError = s.loadError := rfl
@[simp] theorem State.updSeg_sector (id : SegId) (f : Segment → Segment) : (s.updSeg id f).sector = s.sector := rfl
@[simp] theorem State.updSeg_queue (id : SegId) (f : Segment → Segment) : (s.updSeg id f).queue = s.queue := rfl
@[simp] theorem State.updSeg_scanDue (id : SegId) (f : Segment → Segment) : (s.updSeg id f).scanDue = s.scanDue := rfl
@[simp] theorem State.updSeg_dwell (id : SegId) (f : Segment → Segment) : (s.updSeg id f).dwell = s.dwell := rfl
@[simp] theorem State.updSeg_haltOut (id : SegId) (f : Segment → Segment) : (s.updSeg id f).haltOut = s.haltOut := rfl
@[simp] theorem State.updSeg_startStop (id : SegId) (f : Segment → Segment) : (s.updSeg id f).startStop = s.startStop := rfl
@[simp] theorem State.updSeg_stopLine (id : SegId) (f : Segment → Segment) : (s.updSeg id f).stopLine = s.stopLine := rfl
@[simp] theorem State.updSeg_branches (id : SegId) (f : Segment → Segment) : (s.updSeg id f).branches = s.branches := rfl
@[simp] theorem State.updSeg_census (id : SegId) (f : Segment → Segment) : (s.updSeg id f).census = s.census := rfl
@[simp] theorem State.updSeg_links (id : SegId) (f : Segment → Segment) : (s.updSeg id f).links = s.links := rfl
@[simp] theorem State.updSeg_senses (id : SegId) (f : Segment → Segment) : (s.updSeg id f).senses = s.senses := rfl
@[simp] theorem State.updSeg_stream (id : SegId) (f : Segment → Segment) : (s.updSeg id f).stream = s.stream := rfl
@[simp] theorem State.updSeg_armed (id : SegId) (f : Segment → Segment) : (s.updSeg id f).armed = s.armed := rfl
@[simp] theorem State.updSeg_straps (id : SegId) (f : Segment → Segment) : (s.updSeg id f).straps = s.straps := rfl
@[simp] theorem State.updSeg_strapReads (id : SegId) (f : Segment → Segment) : (s.updSeg id f).strapReads = s.strapReads := rfl
@[simp] theorem State.updSeg_ports (id : SegId) (f : Segment → Segment) : (s.updSeg id f).ports = s.ports := rfl
@[simp] theorem State.updSeg_phase (id : SegId) (f : Segment → Segment) : (s.updSeg id f).phase = s.phase := rfl
@[simp] theorem State.updSeg_timebase (id : SegId) (f : Segment → Segment) : (s.updSeg id f).timebase = s.timebase := rfl
@[simp] theorem State.updSeg_resetHeld (id : SegId) (f : Segment → Segment) : (s.updSeg id f).resetHeld = s.resetHeld := rfl
@[simp] theorem State.updSeg_now (id : SegId) (f : Segment → Segment) : (s.updSeg id f).now = s.now := rfl
@[simp] theorem State.updSeg_pending (id : SegId) (f : Segment → Segment) : (s.updSeg id f).pending = s.pending := rfl

/-! `State.updBranch` changes the field `branches` alone. -/

@[simp] theorem State.updBranch_store (b : BranchId) (f : Branch → Branch) : (s.updBranch b f).store = s.store := rfl
@[simp] theorem State.updBranch_sectorId (b : BranchId) (f : Branch → Branch) : (s.updBranch b f).sectorId = s.sectorId := rfl
@[simp] theorem State.updBranch_fixed (b : BranchId) (f : Branch → Branch) : (s.updBranch b f).fixed = s.fixed := rfl
@[simp] theorem State.updBranch_border (b : BranchId) (f : Branch → Branch) : (s.updBranch b f).border = s.border := rfl
@[simp] theorem State.updBranch_retired (b : BranchId) (f : Branch → Branch) : (s.updBranch b f).retired = s.retired := rfl
@[simp] theorem State.updBranch_slots (b : BranchId) (f : Branch → Branch) : (s.updBranch b f).slots = s.slots := rfl
@[simp] theorem State.updBranch_cells (b : BranchId) (f : Branch → Branch) : (s.updBranch b f).cells = s.cells := rfl
@[simp] theorem State.updBranch_pool (b : BranchId) (f : Branch → Branch) : (s.updBranch b f).pool = s.pool := rfl
@[simp] theorem State.updBranch_free (b : BranchId) (f : Branch → Branch) : (s.updBranch b f).free = s.free := rfl
@[simp] theorem State.updBranch_batches (b : BranchId) (f : Branch → Branch) : (s.updBranch b f).batches = s.batches := rfl
@[simp] theorem State.updBranch_endCount (b : BranchId) (f : Branch → Branch) : (s.updBranch b f).endCount = s.endCount := rfl
@[simp] theorem State.updBranch_loadError (b : BranchId) (f : Branch → Branch) : (s.updBranch b f).loadError = s.loadError := rfl
@[simp] theorem State.updBranch_sector (b : BranchId) (f : Branch → Branch) : (s.updBranch b f).sector = s.sector := rfl
@[simp] theorem State.updBranch_queue (b : BranchId) (f : Branch → Branch) : (s.updBranch b f).queue = s.queue := rfl
@[simp] theorem State.updBranch_scanDue (b : BranchId) (f : Branch → Branch) : (s.updBranch b f).scanDue = s.scanDue := rfl
@[simp] theorem State.updBranch_dwell (b : BranchId) (f : Branch → Branch) : (s.updBranch b f).dwell = s.dwell := rfl
@[simp] theorem State.updBranch_haltOut (b : BranchId) (f : Branch → Branch) : (s.updBranch b f).haltOut = s.haltOut := rfl
@[simp] theorem State.updBranch_startStop (b : BranchId) (f : Branch → Branch) : (s.updBranch b f).startStop = s.startStop := rfl
@[simp] theorem State.updBranch_stopLine (b : BranchId) (f : Branch → Branch) : (s.updBranch b f).stopLine = s.stopLine := rfl
@[simp] theorem State.updBranch_census (b : BranchId) (f : Branch → Branch) : (s.updBranch b f).census = s.census := rfl
@[simp] theorem State.updBranch_links (b : BranchId) (f : Branch → Branch) : (s.updBranch b f).links = s.links := rfl
@[simp] theorem State.updBranch_senses (b : BranchId) (f : Branch → Branch) : (s.updBranch b f).senses = s.senses := rfl
@[simp] theorem State.updBranch_stream (b : BranchId) (f : Branch → Branch) : (s.updBranch b f).stream = s.stream := rfl
@[simp] theorem State.updBranch_armed (b : BranchId) (f : Branch → Branch) : (s.updBranch b f).armed = s.armed := rfl
@[simp] theorem State.updBranch_straps (b : BranchId) (f : Branch → Branch) : (s.updBranch b f).straps = s.straps := rfl
@[simp] theorem State.updBranch_strapReads (b : BranchId) (f : Branch → Branch) : (s.updBranch b f).strapReads = s.strapReads := rfl
@[simp] theorem State.updBranch_ports (b : BranchId) (f : Branch → Branch) : (s.updBranch b f).ports = s.ports := rfl
@[simp] theorem State.updBranch_phase (b : BranchId) (f : Branch → Branch) : (s.updBranch b f).phase = s.phase := rfl
@[simp] theorem State.updBranch_timebase (b : BranchId) (f : Branch → Branch) : (s.updBranch b f).timebase = s.timebase := rfl
@[simp] theorem State.updBranch_resetHeld (b : BranchId) (f : Branch → Branch) : (s.updBranch b f).resetHeld = s.resetHeld := rfl
@[simp] theorem State.updBranch_now (b : BranchId) (f : Branch → Branch) : (s.updBranch b f).now = s.now := rfl
@[simp] theorem State.updBranch_pending (b : BranchId) (f : Branch → Branch) : (s.updBranch b f).pending = s.pending := rfl

/-! `State.updLink` changes the field `links` alone. -/

@[simp] theorem State.updLink_store (k : LinkId) (f : Link → Link) : (s.updLink k f).store = s.store := rfl
@[simp] theorem State.updLink_sectorId (k : LinkId) (f : Link → Link) : (s.updLink k f).sectorId = s.sectorId := rfl
@[simp] theorem State.updLink_fixed (k : LinkId) (f : Link → Link) : (s.updLink k f).fixed = s.fixed := rfl
@[simp] theorem State.updLink_border (k : LinkId) (f : Link → Link) : (s.updLink k f).border = s.border := rfl
@[simp] theorem State.updLink_retired (k : LinkId) (f : Link → Link) : (s.updLink k f).retired = s.retired := rfl
@[simp] theorem State.updLink_slots (k : LinkId) (f : Link → Link) : (s.updLink k f).slots = s.slots := rfl
@[simp] theorem State.updLink_cells (k : LinkId) (f : Link → Link) : (s.updLink k f).cells = s.cells := rfl
@[simp] theorem State.updLink_pool (k : LinkId) (f : Link → Link) : (s.updLink k f).pool = s.pool := rfl
@[simp] theorem State.updLink_free (k : LinkId) (f : Link → Link) : (s.updLink k f).free = s.free := rfl
@[simp] theorem State.updLink_batches (k : LinkId) (f : Link → Link) : (s.updLink k f).batches = s.batches := rfl
@[simp] theorem State.updLink_endCount (k : LinkId) (f : Link → Link) : (s.updLink k f).endCount = s.endCount := rfl
@[simp] theorem State.updLink_loadError (k : LinkId) (f : Link → Link) : (s.updLink k f).loadError = s.loadError := rfl
@[simp] theorem State.updLink_sector (k : LinkId) (f : Link → Link) : (s.updLink k f).sector = s.sector := rfl
@[simp] theorem State.updLink_queue (k : LinkId) (f : Link → Link) : (s.updLink k f).queue = s.queue := rfl
@[simp] theorem State.updLink_scanDue (k : LinkId) (f : Link → Link) : (s.updLink k f).scanDue = s.scanDue := rfl
@[simp] theorem State.updLink_dwell (k : LinkId) (f : Link → Link) : (s.updLink k f).dwell = s.dwell := rfl
@[simp] theorem State.updLink_haltOut (k : LinkId) (f : Link → Link) : (s.updLink k f).haltOut = s.haltOut := rfl
@[simp] theorem State.updLink_startStop (k : LinkId) (f : Link → Link) : (s.updLink k f).startStop = s.startStop := rfl
@[simp] theorem State.updLink_stopLine (k : LinkId) (f : Link → Link) : (s.updLink k f).stopLine = s.stopLine := rfl
@[simp] theorem State.updLink_branches (k : LinkId) (f : Link → Link) : (s.updLink k f).branches = s.branches := rfl
@[simp] theorem State.updLink_census (k : LinkId) (f : Link → Link) : (s.updLink k f).census = s.census := rfl
@[simp] theorem State.updLink_senses (k : LinkId) (f : Link → Link) : (s.updLink k f).senses = s.senses := rfl
@[simp] theorem State.updLink_stream (k : LinkId) (f : Link → Link) : (s.updLink k f).stream = s.stream := rfl
@[simp] theorem State.updLink_armed (k : LinkId) (f : Link → Link) : (s.updLink k f).armed = s.armed := rfl
@[simp] theorem State.updLink_straps (k : LinkId) (f : Link → Link) : (s.updLink k f).straps = s.straps := rfl
@[simp] theorem State.updLink_strapReads (k : LinkId) (f : Link → Link) : (s.updLink k f).strapReads = s.strapReads := rfl
@[simp] theorem State.updLink_ports (k : LinkId) (f : Link → Link) : (s.updLink k f).ports = s.ports := rfl
@[simp] theorem State.updLink_phase (k : LinkId) (f : Link → Link) : (s.updLink k f).phase = s.phase := rfl
@[simp] theorem State.updLink_timebase (k : LinkId) (f : Link → Link) : (s.updLink k f).timebase = s.timebase := rfl
@[simp] theorem State.updLink_resetHeld (k : LinkId) (f : Link → Link) : (s.updLink k f).resetHeld = s.resetHeld := rfl
@[simp] theorem State.updLink_now (k : LinkId) (f : Link → Link) : (s.updLink k f).now = s.now := rfl
@[simp] theorem State.updLink_pending (k : LinkId) (f : Link → Link) : (s.updLink k f).pending = s.pending := rfl

/-! `State.updPort` changes the field `ports` alone. -/

@[simp] theorem State.updPort_store (p : PortId) (f : Port → Port) : (s.updPort p f).store = s.store := rfl
@[simp] theorem State.updPort_sectorId (p : PortId) (f : Port → Port) : (s.updPort p f).sectorId = s.sectorId := rfl
@[simp] theorem State.updPort_fixed (p : PortId) (f : Port → Port) : (s.updPort p f).fixed = s.fixed := rfl
@[simp] theorem State.updPort_border (p : PortId) (f : Port → Port) : (s.updPort p f).border = s.border := rfl
@[simp] theorem State.updPort_retired (p : PortId) (f : Port → Port) : (s.updPort p f).retired = s.retired := rfl
@[simp] theorem State.updPort_slots (p : PortId) (f : Port → Port) : (s.updPort p f).slots = s.slots := rfl
@[simp] theorem State.updPort_cells (p : PortId) (f : Port → Port) : (s.updPort p f).cells = s.cells := rfl
@[simp] theorem State.updPort_pool (p : PortId) (f : Port → Port) : (s.updPort p f).pool = s.pool := rfl
@[simp] theorem State.updPort_free (p : PortId) (f : Port → Port) : (s.updPort p f).free = s.free := rfl
@[simp] theorem State.updPort_batches (p : PortId) (f : Port → Port) : (s.updPort p f).batches = s.batches := rfl
@[simp] theorem State.updPort_endCount (p : PortId) (f : Port → Port) : (s.updPort p f).endCount = s.endCount := rfl
@[simp] theorem State.updPort_loadError (p : PortId) (f : Port → Port) : (s.updPort p f).loadError = s.loadError := rfl
@[simp] theorem State.updPort_sector (p : PortId) (f : Port → Port) : (s.updPort p f).sector = s.sector := rfl
@[simp] theorem State.updPort_queue (p : PortId) (f : Port → Port) : (s.updPort p f).queue = s.queue := rfl
@[simp] theorem State.updPort_scanDue (p : PortId) (f : Port → Port) : (s.updPort p f).scanDue = s.scanDue := rfl
@[simp] theorem State.updPort_dwell (p : PortId) (f : Port → Port) : (s.updPort p f).dwell = s.dwell := rfl
@[simp] theorem State.updPort_haltOut (p : PortId) (f : Port → Port) : (s.updPort p f).haltOut = s.haltOut := rfl
@[simp] theorem State.updPort_startStop (p : PortId) (f : Port → Port) : (s.updPort p f).startStop = s.startStop := rfl
@[simp] theorem State.updPort_stopLine (p : PortId) (f : Port → Port) : (s.updPort p f).stopLine = s.stopLine := rfl
@[simp] theorem State.updPort_branches (p : PortId) (f : Port → Port) : (s.updPort p f).branches = s.branches := rfl
@[simp] theorem State.updPort_census (p : PortId) (f : Port → Port) : (s.updPort p f).census = s.census := rfl
@[simp] theorem State.updPort_links (p : PortId) (f : Port → Port) : (s.updPort p f).links = s.links := rfl
@[simp] theorem State.updPort_senses (p : PortId) (f : Port → Port) : (s.updPort p f).senses = s.senses := rfl
@[simp] theorem State.updPort_stream (p : PortId) (f : Port → Port) : (s.updPort p f).stream = s.stream := rfl
@[simp] theorem State.updPort_armed (p : PortId) (f : Port → Port) : (s.updPort p f).armed = s.armed := rfl
@[simp] theorem State.updPort_straps (p : PortId) (f : Port → Port) : (s.updPort p f).straps = s.straps := rfl
@[simp] theorem State.updPort_strapReads (p : PortId) (f : Port → Port) : (s.updPort p f).strapReads = s.strapReads := rfl
@[simp] theorem State.updPort_phase (p : PortId) (f : Port → Port) : (s.updPort p f).phase = s.phase := rfl
@[simp] theorem State.updPort_timebase (p : PortId) (f : Port → Port) : (s.updPort p f).timebase = s.timebase := rfl
@[simp] theorem State.updPort_resetHeld (p : PortId) (f : Port → Port) : (s.updPort p f).resetHeld = s.resetHeld := rfl
@[simp] theorem State.updPort_now (p : PortId) (f : Port → Port) : (s.updPort p f).now = s.now := rfl
@[simp] theorem State.updPort_pending (p : PortId) (f : Port → Port) : (s.updPort p f).pending = s.pending := rfl

/-! `State.updSense` changes the field `senses` alone. -/

@[simp] theorem State.updSense_store (n : SlotId) (f : SenseRec → SenseRec) : (s.updSense n f).store = s.store := rfl
@[simp] theorem State.updSense_sectorId (n : SlotId) (f : SenseRec → SenseRec) : (s.updSense n f).sectorId = s.sectorId := rfl
@[simp] theorem State.updSense_fixed (n : SlotId) (f : SenseRec → SenseRec) : (s.updSense n f).fixed = s.fixed := rfl
@[simp] theorem State.updSense_border (n : SlotId) (f : SenseRec → SenseRec) : (s.updSense n f).border = s.border := rfl
@[simp] theorem State.updSense_retired (n : SlotId) (f : SenseRec → SenseRec) : (s.updSense n f).retired = s.retired := rfl
@[simp] theorem State.updSense_slots (n : SlotId) (f : SenseRec → SenseRec) : (s.updSense n f).slots = s.slots := rfl
@[simp] theorem State.updSense_cells (n : SlotId) (f : SenseRec → SenseRec) : (s.updSense n f).cells = s.cells := rfl
@[simp] theorem State.updSense_pool (n : SlotId) (f : SenseRec → SenseRec) : (s.updSense n f).pool = s.pool := rfl
@[simp] theorem State.updSense_free (n : SlotId) (f : SenseRec → SenseRec) : (s.updSense n f).free = s.free := rfl
@[simp] theorem State.updSense_batches (n : SlotId) (f : SenseRec → SenseRec) : (s.updSense n f).batches = s.batches := rfl
@[simp] theorem State.updSense_endCount (n : SlotId) (f : SenseRec → SenseRec) : (s.updSense n f).endCount = s.endCount := rfl
@[simp] theorem State.updSense_loadError (n : SlotId) (f : SenseRec → SenseRec) : (s.updSense n f).loadError = s.loadError := rfl
@[simp] theorem State.updSense_sector (n : SlotId) (f : SenseRec → SenseRec) : (s.updSense n f).sector = s.sector := rfl
@[simp] theorem State.updSense_queue (n : SlotId) (f : SenseRec → SenseRec) : (s.updSense n f).queue = s.queue := rfl
@[simp] theorem State.updSense_scanDue (n : SlotId) (f : SenseRec → SenseRec) : (s.updSense n f).scanDue = s.scanDue := rfl
@[simp] theorem State.updSense_dwell (n : SlotId) (f : SenseRec → SenseRec) : (s.updSense n f).dwell = s.dwell := rfl
@[simp] theorem State.updSense_haltOut (n : SlotId) (f : SenseRec → SenseRec) : (s.updSense n f).haltOut = s.haltOut := rfl
@[simp] theorem State.updSense_startStop (n : SlotId) (f : SenseRec → SenseRec) : (s.updSense n f).startStop = s.startStop := rfl
@[simp] theorem State.updSense_stopLine (n : SlotId) (f : SenseRec → SenseRec) : (s.updSense n f).stopLine = s.stopLine := rfl
@[simp] theorem State.updSense_branches (n : SlotId) (f : SenseRec → SenseRec) : (s.updSense n f).branches = s.branches := rfl
@[simp] theorem State.updSense_census (n : SlotId) (f : SenseRec → SenseRec) : (s.updSense n f).census = s.census := rfl
@[simp] theorem State.updSense_links (n : SlotId) (f : SenseRec → SenseRec) : (s.updSense n f).links = s.links := rfl
@[simp] theorem State.updSense_stream (n : SlotId) (f : SenseRec → SenseRec) : (s.updSense n f).stream = s.stream := rfl
@[simp] theorem State.updSense_armed (n : SlotId) (f : SenseRec → SenseRec) : (s.updSense n f).armed = s.armed := rfl
@[simp] theorem State.updSense_straps (n : SlotId) (f : SenseRec → SenseRec) : (s.updSense n f).straps = s.straps := rfl
@[simp] theorem State.updSense_strapReads (n : SlotId) (f : SenseRec → SenseRec) : (s.updSense n f).strapReads = s.strapReads := rfl
@[simp] theorem State.updSense_ports (n : SlotId) (f : SenseRec → SenseRec) : (s.updSense n f).ports = s.ports := rfl
@[simp] theorem State.updSense_phase (n : SlotId) (f : SenseRec → SenseRec) : (s.updSense n f).phase = s.phase := rfl
@[simp] theorem State.updSense_timebase (n : SlotId) (f : SenseRec → SenseRec) : (s.updSense n f).timebase = s.timebase := rfl
@[simp] theorem State.updSense_resetHeld (n : SlotId) (f : SenseRec → SenseRec) : (s.updSense n f).resetHeld = s.resetHeld := rfl
@[simp] theorem State.updSense_now (n : SlotId) (f : SenseRec → SenseRec) : (s.updSense n f).now = s.now := rfl
@[simp] theorem State.updSense_pending (n : SlotId) (f : SenseRec → SenseRec) : (s.updSense n f).pending = s.pending := rfl

/-! `State.updEntry` changes the field `queue` alone. -/

@[simp] theorem State.updEntry_store (n : SlotId) (f : QEntry → QEntry) : (s.updEntry n f).store = s.store := rfl
@[simp] theorem State.updEntry_sectorId (n : SlotId) (f : QEntry → QEntry) : (s.updEntry n f).sectorId = s.sectorId := rfl
@[simp] theorem State.updEntry_fixed (n : SlotId) (f : QEntry → QEntry) : (s.updEntry n f).fixed = s.fixed := rfl
@[simp] theorem State.updEntry_border (n : SlotId) (f : QEntry → QEntry) : (s.updEntry n f).border = s.border := rfl
@[simp] theorem State.updEntry_retired (n : SlotId) (f : QEntry → QEntry) : (s.updEntry n f).retired = s.retired := rfl
@[simp] theorem State.updEntry_slots (n : SlotId) (f : QEntry → QEntry) : (s.updEntry n f).slots = s.slots := rfl
@[simp] theorem State.updEntry_cells (n : SlotId) (f : QEntry → QEntry) : (s.updEntry n f).cells = s.cells := rfl
@[simp] theorem State.updEntry_pool (n : SlotId) (f : QEntry → QEntry) : (s.updEntry n f).pool = s.pool := rfl
@[simp] theorem State.updEntry_free (n : SlotId) (f : QEntry → QEntry) : (s.updEntry n f).free = s.free := rfl
@[simp] theorem State.updEntry_batches (n : SlotId) (f : QEntry → QEntry) : (s.updEntry n f).batches = s.batches := rfl
@[simp] theorem State.updEntry_endCount (n : SlotId) (f : QEntry → QEntry) : (s.updEntry n f).endCount = s.endCount := rfl
@[simp] theorem State.updEntry_loadError (n : SlotId) (f : QEntry → QEntry) : (s.updEntry n f).loadError = s.loadError := rfl
@[simp] theorem State.updEntry_sector (n : SlotId) (f : QEntry → QEntry) : (s.updEntry n f).sector = s.sector := rfl
@[simp] theorem State.updEntry_scanDue (n : SlotId) (f : QEntry → QEntry) : (s.updEntry n f).scanDue = s.scanDue := rfl
@[simp] theorem State.updEntry_dwell (n : SlotId) (f : QEntry → QEntry) : (s.updEntry n f).dwell = s.dwell := rfl
@[simp] theorem State.updEntry_haltOut (n : SlotId) (f : QEntry → QEntry) : (s.updEntry n f).haltOut = s.haltOut := rfl
@[simp] theorem State.updEntry_startStop (n : SlotId) (f : QEntry → QEntry) : (s.updEntry n f).startStop = s.startStop := rfl
@[simp] theorem State.updEntry_stopLine (n : SlotId) (f : QEntry → QEntry) : (s.updEntry n f).stopLine = s.stopLine := rfl
@[simp] theorem State.updEntry_branches (n : SlotId) (f : QEntry → QEntry) : (s.updEntry n f).branches = s.branches := rfl
@[simp] theorem State.updEntry_census (n : SlotId) (f : QEntry → QEntry) : (s.updEntry n f).census = s.census := rfl
@[simp] theorem State.updEntry_links (n : SlotId) (f : QEntry → QEntry) : (s.updEntry n f).links = s.links := rfl
@[simp] theorem State.updEntry_senses (n : SlotId) (f : QEntry → QEntry) : (s.updEntry n f).senses = s.senses := rfl
@[simp] theorem State.updEntry_stream (n : SlotId) (f : QEntry → QEntry) : (s.updEntry n f).stream = s.stream := rfl
@[simp] theorem State.updEntry_armed (n : SlotId) (f : QEntry → QEntry) : (s.updEntry n f).armed = s.armed := rfl
@[simp] theorem State.updEntry_straps (n : SlotId) (f : QEntry → QEntry) : (s.updEntry n f).straps = s.straps := rfl
@[simp] theorem State.updEntry_strapReads (n : SlotId) (f : QEntry → QEntry) : (s.updEntry n f).strapReads = s.strapReads := rfl
@[simp] theorem State.updEntry_ports (n : SlotId) (f : QEntry → QEntry) : (s.updEntry n f).ports = s.ports := rfl
@[simp] theorem State.updEntry_phase (n : SlotId) (f : QEntry → QEntry) : (s.updEntry n f).phase = s.phase := rfl
@[simp] theorem State.updEntry_timebase (n : SlotId) (f : QEntry → QEntry) : (s.updEntry n f).timebase = s.timebase := rfl
@[simp] theorem State.updEntry_resetHeld (n : SlotId) (f : QEntry → QEntry) : (s.updEntry n f).resetHeld = s.resetHeld := rfl
@[simp] theorem State.updEntry_now (n : SlotId) (f : QEntry → QEntry) : (s.updEntry n f).now = s.now := rfl
@[simp] theorem State.updEntry_pending (n : SlotId) (f : QEntry → QEntry) : (s.updEntry n f).pending = s.pending := rfl

/-! `State.updBatch` changes the field `batches` alone. -/

@[simp] theorem State.updBatch_store (id : Nat) (f : Batch → Batch) : (s.updBatch id f).store = s.store := rfl
@[simp] theorem State.updBatch_sectorId (id : Nat) (f : Batch → Batch) : (s.updBatch id f).sectorId = s.sectorId := rfl
@[simp] theorem State.updBatch_fixed (id : Nat) (f : Batch → Batch) : (s.updBatch id f).fixed = s.fixed := rfl
@[simp] theorem State.updBatch_border (id : Nat) (f : Batch → Batch) : (s.updBatch id f).border = s.border := rfl
@[simp] theorem State.updBatch_retired (id : Nat) (f : Batch → Batch) : (s.updBatch id f).retired = s.retired := rfl
@[simp] theorem State.updBatch_slots (id : Nat) (f : Batch → Batch) : (s.updBatch id f).slots = s.slots := rfl
@[simp] theorem State.updBatch_cells (id : Nat) (f : Batch → Batch) : (s.updBatch id f).cells = s.cells := rfl
@[simp] theorem State.updBatch_pool (id : Nat) (f : Batch → Batch) : (s.updBatch id f).pool = s.pool := rfl
@[simp] theorem State.updBatch_free (id : Nat) (f : Batch → Batch) : (s.updBatch id f).free = s.free := rfl
@[simp] theorem State.updBatch_endCount (id : Nat) (f : Batch → Batch) : (s.updBatch id f).endCount = s.endCount := rfl
@[simp] theorem State.updBatch_loadError (id : Nat) (f : Batch → Batch) : (s.updBatch id f).loadError = s.loadError := rfl
@[simp] theorem State.updBatch_sector (id : Nat) (f : Batch → Batch) : (s.updBatch id f).sector = s.sector := rfl
@[simp] theorem State.updBatch_queue (id : Nat) (f : Batch → Batch) : (s.updBatch id f).queue = s.queue := rfl
@[simp] theorem State.updBatch_scanDue (id : Nat) (f : Batch → Batch) : (s.updBatch id f).scanDue = s.scanDue := rfl
@[simp] theorem State.updBatch_dwell (id : Nat) (f : Batch → Batch) : (s.updBatch id f).dwell = s.dwell := rfl
@[simp] theorem State.updBatch_haltOut (id : Nat) (f : Batch → Batch) : (s.updBatch id f).haltOut = s.haltOut := rfl
@[simp] theorem State.updBatch_startStop (id : Nat) (f : Batch → Batch) : (s.updBatch id f).startStop = s.startStop := rfl
@[simp] theorem State.updBatch_stopLine (id : Nat) (f : Batch → Batch) : (s.updBatch id f).stopLine = s.stopLine := rfl
@[simp] theorem State.updBatch_branches (id : Nat) (f : Batch → Batch) : (s.updBatch id f).branches = s.branches := rfl
@[simp] theorem State.updBatch_census (id : Nat) (f : Batch → Batch) : (s.updBatch id f).census = s.census := rfl
@[simp] theorem State.updBatch_links (id : Nat) (f : Batch → Batch) : (s.updBatch id f).links = s.links := rfl
@[simp] theorem State.updBatch_senses (id : Nat) (f : Batch → Batch) : (s.updBatch id f).senses = s.senses := rfl
@[simp] theorem State.updBatch_stream (id : Nat) (f : Batch → Batch) : (s.updBatch id f).stream = s.stream := rfl
@[simp] theorem State.updBatch_armed (id : Nat) (f : Batch → Batch) : (s.updBatch id f).armed = s.armed := rfl
@[simp] theorem State.updBatch_straps (id : Nat) (f : Batch → Batch) : (s.updBatch id f).straps = s.straps := rfl
@[simp] theorem State.updBatch_strapReads (id : Nat) (f : Batch → Batch) : (s.updBatch id f).strapReads = s.strapReads := rfl
@[simp] theorem State.updBatch_ports (id : Nat) (f : Batch → Batch) : (s.updBatch id f).ports = s.ports := rfl
@[simp] theorem State.updBatch_phase (id : Nat) (f : Batch → Batch) : (s.updBatch id f).phase = s.phase := rfl
@[simp] theorem State.updBatch_timebase (id : Nat) (f : Batch → Batch) : (s.updBatch id f).timebase = s.timebase := rfl
@[simp] theorem State.updBatch_resetHeld (id : Nat) (f : Batch → Batch) : (s.updBatch id f).resetHeld = s.resetHeld := rfl
@[simp] theorem State.updBatch_now (id : Nat) (f : Batch → Batch) : (s.updBatch id f).now = s.now := rfl
@[simp] theorem State.updBatch_pending (id : Nat) (f : Batch → Batch) : (s.updBatch id f).pending = s.pending := rfl

/-! `State.raise` changes the field `ports` alone. -/

@[simp] theorem State.raise_store (nt : Notice) : (s.raise nt).store = s.store := rfl
@[simp] theorem State.raise_sectorId (nt : Notice) : (s.raise nt).sectorId = s.sectorId := rfl
@[simp] theorem State.raise_fixed (nt : Notice) : (s.raise nt).fixed = s.fixed := rfl
@[simp] theorem State.raise_border (nt : Notice) : (s.raise nt).border = s.border := rfl
@[simp] theorem State.raise_retired (nt : Notice) : (s.raise nt).retired = s.retired := rfl
@[simp] theorem State.raise_slots (nt : Notice) : (s.raise nt).slots = s.slots := rfl
@[simp] theorem State.raise_cells (nt : Notice) : (s.raise nt).cells = s.cells := rfl
@[simp] theorem State.raise_pool (nt : Notice) : (s.raise nt).pool = s.pool := rfl
@[simp] theorem State.raise_free (nt : Notice) : (s.raise nt).free = s.free := rfl
@[simp] theorem State.raise_batches (nt : Notice) : (s.raise nt).batches = s.batches := rfl
@[simp] theorem State.raise_endCount (nt : Notice) : (s.raise nt).endCount = s.endCount := rfl
@[simp] theorem State.raise_loadError (nt : Notice) : (s.raise nt).loadError = s.loadError := rfl
@[simp] theorem State.raise_sector (nt : Notice) : (s.raise nt).sector = s.sector := rfl
@[simp] theorem State.raise_queue (nt : Notice) : (s.raise nt).queue = s.queue := rfl
@[simp] theorem State.raise_scanDue (nt : Notice) : (s.raise nt).scanDue = s.scanDue := rfl
@[simp] theorem State.raise_dwell (nt : Notice) : (s.raise nt).dwell = s.dwell := rfl
@[simp] theorem State.raise_haltOut (nt : Notice) : (s.raise nt).haltOut = s.haltOut := rfl
@[simp] theorem State.raise_startStop (nt : Notice) : (s.raise nt).startStop = s.startStop := rfl
@[simp] theorem State.raise_stopLine (nt : Notice) : (s.raise nt).stopLine = s.stopLine := rfl
@[simp] theorem State.raise_branches (nt : Notice) : (s.raise nt).branches = s.branches := rfl
@[simp] theorem State.raise_census (nt : Notice) : (s.raise nt).census = s.census := rfl
@[simp] theorem State.raise_links (nt : Notice) : (s.raise nt).links = s.links := rfl
@[simp] theorem State.raise_senses (nt : Notice) : (s.raise nt).senses = s.senses := rfl
@[simp] theorem State.raise_stream (nt : Notice) : (s.raise nt).stream = s.stream := rfl
@[simp] theorem State.raise_armed (nt : Notice) : (s.raise nt).armed = s.armed := rfl
@[simp] theorem State.raise_straps (nt : Notice) : (s.raise nt).straps = s.straps := rfl
@[simp] theorem State.raise_strapReads (nt : Notice) : (s.raise nt).strapReads = s.strapReads := rfl
@[simp] theorem State.raise_phase (nt : Notice) : (s.raise nt).phase = s.phase := rfl
@[simp] theorem State.raise_timebase (nt : Notice) : (s.raise nt).timebase = s.timebase := rfl
@[simp] theorem State.raise_resetHeld (nt : Notice) : (s.raise nt).resetHeld = s.resetHeld := rfl
@[simp] theorem State.raise_now (nt : Notice) : (s.raise nt).now = s.now := rfl
@[simp] theorem State.raise_pending (nt : Notice) : (s.raise nt).pending = s.pending := rfl

/-! `State.send` changes the field `links` alone. -/

@[simp] theorem State.send_store (k : LinkId) (f : BorderFrame) : (s.send k f).store = s.store := rfl
@[simp] theorem State.send_sectorId (k : LinkId) (f : BorderFrame) : (s.send k f).sectorId = s.sectorId := rfl
@[simp] theorem State.send_fixed (k : LinkId) (f : BorderFrame) : (s.send k f).fixed = s.fixed := rfl
@[simp] theorem State.send_border (k : LinkId) (f : BorderFrame) : (s.send k f).border = s.border := rfl
@[simp] theorem State.send_retired (k : LinkId) (f : BorderFrame) : (s.send k f).retired = s.retired := rfl
@[simp] theorem State.send_slots (k : LinkId) (f : BorderFrame) : (s.send k f).slots = s.slots := rfl
@[simp] theorem State.send_cells (k : LinkId) (f : BorderFrame) : (s.send k f).cells = s.cells := rfl
@[simp] theorem State.send_pool (k : LinkId) (f : BorderFrame) : (s.send k f).pool = s.pool := rfl
@[simp] theorem State.send_free (k : LinkId) (f : BorderFrame) : (s.send k f).free = s.free := rfl
@[simp] theorem State.send_batches (k : LinkId) (f : BorderFrame) : (s.send k f).batches = s.batches := rfl
@[simp] theorem State.send_endCount (k : LinkId) (f : BorderFrame) : (s.send k f).endCount = s.endCount := rfl
@[simp] theorem State.send_loadError (k : LinkId) (f : BorderFrame) : (s.send k f).loadError = s.loadError := rfl
@[simp] theorem State.send_sector (k : LinkId) (f : BorderFrame) : (s.send k f).sector = s.sector := rfl
@[simp] theorem State.send_queue (k : LinkId) (f : BorderFrame) : (s.send k f).queue = s.queue := rfl
@[simp] theorem State.send_scanDue (k : LinkId) (f : BorderFrame) : (s.send k f).scanDue = s.scanDue := rfl
@[simp] theorem State.send_dwell (k : LinkId) (f : BorderFrame) : (s.send k f).dwell = s.dwell := rfl
@[simp] theorem State.send_haltOut (k : LinkId) (f : BorderFrame) : (s.send k f).haltOut = s.haltOut := rfl
@[simp] theorem State.send_startStop (k : LinkId) (f : BorderFrame) : (s.send k f).startStop = s.startStop := rfl
@[simp] theorem State.send_stopLine (k : LinkId) (f : BorderFrame) : (s.send k f).stopLine = s.stopLine := rfl
@[simp] theorem State.send_branches (k : LinkId) (f : BorderFrame) : (s.send k f).branches = s.branches := rfl
@[simp] theorem State.send_census (k : LinkId) (f : BorderFrame) : (s.send k f).census = s.census := rfl
@[simp] theorem State.send_senses (k : LinkId) (f : BorderFrame) : (s.send k f).senses = s.senses := rfl
@[simp] theorem State.send_stream (k : LinkId) (f : BorderFrame) : (s.send k f).stream = s.stream := rfl
@[simp] theorem State.send_armed (k : LinkId) (f : BorderFrame) : (s.send k f).armed = s.armed := rfl
@[simp] theorem State.send_straps (k : LinkId) (f : BorderFrame) : (s.send k f).straps = s.straps := rfl
@[simp] theorem State.send_strapReads (k : LinkId) (f : BorderFrame) : (s.send k f).strapReads = s.strapReads := rfl
@[simp] theorem State.send_ports (k : LinkId) (f : BorderFrame) : (s.send k f).ports = s.ports := rfl
@[simp] theorem State.send_phase (k : LinkId) (f : BorderFrame) : (s.send k f).phase = s.phase := rfl
@[simp] theorem State.send_timebase (k : LinkId) (f : BorderFrame) : (s.send k f).timebase = s.timebase := rfl
@[simp] theorem State.send_resetHeld (k : LinkId) (f : BorderFrame) : (s.send k f).resetHeld = s.resetHeld := rfl
@[simp] theorem State.send_now (k : LinkId) (f : BorderFrame) : (s.send k f).now = s.now := rfl
@[simp] theorem State.send_pending (k : LinkId) (f : BorderFrame) : (s.send k f).pending = s.pending := rfl

/-! `State.clockTo` changes the field `now` alone. -/

@[simp] theorem State.clockTo_store (t : Nat) : (s.clockTo t).store = s.store := rfl
@[simp] theorem State.clockTo_sectorId (t : Nat) : (s.clockTo t).sectorId = s.sectorId := rfl
@[simp] theorem State.clockTo_fixed (t : Nat) : (s.clockTo t).fixed = s.fixed := rfl
@[simp] theorem State.clockTo_border (t : Nat) : (s.clockTo t).border = s.border := rfl
@[simp] theorem State.clockTo_retired (t : Nat) : (s.clockTo t).retired = s.retired := rfl
@[simp] theorem State.clockTo_slots (t : Nat) : (s.clockTo t).slots = s.slots := rfl
@[simp] theorem State.clockTo_cells (t : Nat) : (s.clockTo t).cells = s.cells := rfl
@[simp] theorem State.clockTo_pool (t : Nat) : (s.clockTo t).pool = s.pool := rfl
@[simp] theorem State.clockTo_free (t : Nat) : (s.clockTo t).free = s.free := rfl
@[simp] theorem State.clockTo_batches (t : Nat) : (s.clockTo t).batches = s.batches := rfl
@[simp] theorem State.clockTo_endCount (t : Nat) : (s.clockTo t).endCount = s.endCount := rfl
@[simp] theorem State.clockTo_loadError (t : Nat) : (s.clockTo t).loadError = s.loadError := rfl
@[simp] theorem State.clockTo_sector (t : Nat) : (s.clockTo t).sector = s.sector := rfl
@[simp] theorem State.clockTo_queue (t : Nat) : (s.clockTo t).queue = s.queue := rfl
@[simp] theorem State.clockTo_scanDue (t : Nat) : (s.clockTo t).scanDue = s.scanDue := rfl
@[simp] theorem State.clockTo_dwell (t : Nat) : (s.clockTo t).dwell = s.dwell := rfl
@[simp] theorem State.clockTo_haltOut (t : Nat) : (s.clockTo t).haltOut = s.haltOut := rfl
@[simp] theorem State.clockTo_startStop (t : Nat) : (s.clockTo t).startStop = s.startStop := rfl
@[simp] theorem State.clockTo_stopLine (t : Nat) : (s.clockTo t).stopLine = s.stopLine := rfl
@[simp] theorem State.clockTo_branches (t : Nat) : (s.clockTo t).branches = s.branches := rfl
@[simp] theorem State.clockTo_census (t : Nat) : (s.clockTo t).census = s.census := rfl
@[simp] theorem State.clockTo_links (t : Nat) : (s.clockTo t).links = s.links := rfl
@[simp] theorem State.clockTo_senses (t : Nat) : (s.clockTo t).senses = s.senses := rfl
@[simp] theorem State.clockTo_stream (t : Nat) : (s.clockTo t).stream = s.stream := rfl
@[simp] theorem State.clockTo_armed (t : Nat) : (s.clockTo t).armed = s.armed := rfl
@[simp] theorem State.clockTo_straps (t : Nat) : (s.clockTo t).straps = s.straps := rfl
@[simp] theorem State.clockTo_strapReads (t : Nat) : (s.clockTo t).strapReads = s.strapReads := rfl
@[simp] theorem State.clockTo_ports (t : Nat) : (s.clockTo t).ports = s.ports := rfl
@[simp] theorem State.clockTo_phase (t : Nat) : (s.clockTo t).phase = s.phase := rfl
@[simp] theorem State.clockTo_timebase (t : Nat) : (s.clockTo t).timebase = s.timebase := rfl
@[simp] theorem State.clockTo_resetHeld (t : Nat) : (s.clockTo t).resetHeld = s.resetHeld := rfl
@[simp] theorem State.clockTo_pending (t : Nat) : (s.clockTo t).pending = s.pending := rfl

/-! `State.writeImage` changes the field `store` alone. -/

@[simp] theorem State.writeImage_sectorId (i : Image) : (s.writeImage i).sectorId = s.sectorId := rfl
@[simp] theorem State.writeImage_fixed (i : Image) : (s.writeImage i).fixed = s.fixed := rfl
@[simp] theorem State.writeImage_border (i : Image) : (s.writeImage i).border = s.border := rfl
@[simp] theorem State.writeImage_retired (i : Image) : (s.writeImage i).retired = s.retired := rfl
@[simp] theorem State.writeImage_slots (i : Image) : (s.writeImage i).slots = s.slots := rfl
@[simp] theorem State.writeImage_cells (i : Image) : (s.writeImage i).cells = s.cells := rfl
@[simp] theorem State.writeImage_pool (i : Image) : (s.writeImage i).pool = s.pool := rfl
@[simp] theorem State.writeImage_free (i : Image) : (s.writeImage i).free = s.free := rfl
@[simp] theorem State.writeImage_batches (i : Image) : (s.writeImage i).batches = s.batches := rfl
@[simp] theorem State.writeImage_endCount (i : Image) : (s.writeImage i).endCount = s.endCount := rfl
@[simp] theorem State.writeImage_loadError (i : Image) : (s.writeImage i).loadError = s.loadError := rfl
@[simp] theorem State.writeImage_sector (i : Image) : (s.writeImage i).sector = s.sector := rfl
@[simp] theorem State.writeImage_queue (i : Image) : (s.writeImage i).queue = s.queue := rfl
@[simp] theorem State.writeImage_scanDue (i : Image) : (s.writeImage i).scanDue = s.scanDue := rfl
@[simp] theorem State.writeImage_dwell (i : Image) : (s.writeImage i).dwell = s.dwell := rfl
@[simp] theorem State.writeImage_haltOut (i : Image) : (s.writeImage i).haltOut = s.haltOut := rfl
@[simp] theorem State.writeImage_startStop (i : Image) : (s.writeImage i).startStop = s.startStop := rfl
@[simp] theorem State.writeImage_stopLine (i : Image) : (s.writeImage i).stopLine = s.stopLine := rfl
@[simp] theorem State.writeImage_branches (i : Image) : (s.writeImage i).branches = s.branches := rfl
@[simp] theorem State.writeImage_census (i : Image) : (s.writeImage i).census = s.census := rfl
@[simp] theorem State.writeImage_links (i : Image) : (s.writeImage i).links = s.links := rfl
@[simp] theorem State.writeImage_senses (i : Image) : (s.writeImage i).senses = s.senses := rfl
@[simp] theorem State.writeImage_stream (i : Image) : (s.writeImage i).stream = s.stream := rfl
@[simp] theorem State.writeImage_armed (i : Image) : (s.writeImage i).armed = s.armed := rfl
@[simp] theorem State.writeImage_straps (i : Image) : (s.writeImage i).straps = s.straps := rfl
@[simp] theorem State.writeImage_strapReads (i : Image) : (s.writeImage i).strapReads = s.strapReads := rfl
@[simp] theorem State.writeImage_ports (i : Image) : (s.writeImage i).ports = s.ports := rfl
@[simp] theorem State.writeImage_phase (i : Image) : (s.writeImage i).phase = s.phase := rfl
@[simp] theorem State.writeImage_timebase (i : Image) : (s.writeImage i).timebase = s.timebase := rfl
@[simp] theorem State.writeImage_resetHeld (i : Image) : (s.writeImage i).resetHeld = s.resetHeld := rfl
@[simp] theorem State.writeImage_now (i : Image) : (s.writeImage i).now = s.now := rfl
@[simp] theorem State.writeImage_pending (i : Image) : (s.writeImage i).pending = s.pending := rfl

/-! Reading the record that an update wrote, and another. -/

@[simp] theorem State.slot_updSlot_self (n : SlotId) (f : Slot → Slot) : (s.updSlot n f).slot n = f (s.slot n) := by
  simp [State.slot, State.updSlot]
@[simp] theorem State.slot_updSlot_ne {n m : SlotId} (f : Slot → Slot) (h : n ≠ m) : (s.updSlot n f).slot m = s.slot m := by
  simp [State.slot, State.updSlot, h]
@[simp] theorem State.cell_updCells (f : Nat → Cell → Cell) (c : CellId) : (s.updCells f).cell c = f c.val (s.cell c) := by
  simp [State.cell, State.updCells]
@[simp] theorem State.seg_updSeg_self (id : SegId) (f : Segment → Segment) : (s.updSeg id f).seg id = (s.seg id).map f := by
  simp [State.seg, State.updSeg]
@[simp] theorem State.seg_updSeg_ne {i j : SegId} (f : Segment → Segment) (h : i ≠ j) : (s.updSeg i f).seg j = s.seg j := by
  simp [State.seg, State.updSeg, h]
@[simp] theorem State.branch_updBranch_self (b : BranchId) (f : Branch → Branch) :
    (s.updBranch b f).branch b = f (s.branch b) := by
  simp [State.branch, State.updBranch]
@[simp] theorem State.branch_updBranch_ne {b c : BranchId} (f : Branch → Branch) (h : b ≠ c) :
    (s.updBranch b f).branch c = s.branch c := by
  simp [State.branch, State.updBranch, h]
@[simp] theorem State.link_updLink_self (k : LinkId) (f : Link → Link) : (s.updLink k f).link k = f (s.link k) := by
  simp [State.link, State.updLink]
@[simp] theorem State.link_updLink_ne {k j : LinkId} (f : Link → Link) (h : k ≠ j) : (s.updLink k f).link j = s.link j := by
  simp [State.link, State.updLink, h]
@[simp] theorem State.port_updPort_self (p : PortId) (f : Port → Port) : (s.updPort p f).port p = f (s.port p) := by
  simp [State.port, State.updPort]
@[simp] theorem State.port_updPort_ne {p q : PortId} (f : Port → Port) (h : p ≠ q) : (s.updPort p f).port q = s.port q := by
  simp [State.port, State.updPort, h]
@[simp] theorem State.sense_updSense_self (n : SlotId) (f : SenseRec → SenseRec) :
    (s.updSense n f).sense n = f (s.sense n) := by
  simp [State.sense, State.updSense]
@[simp] theorem State.sense_updSense_ne {n m : SlotId} (f : SenseRec → SenseRec) (h : n ≠ m) :
    (s.updSense n f).sense m = s.sense m := by
  simp [State.sense, State.updSense, h]
@[simp] theorem State.port_raise (nt : Notice) (p : PortId) : (s.raise nt).port p = (s.port p).offer nt := by
  simp [State.port, State.raise]

/-- A cell is named in a list of cells. -/
theorem named_iff (c : CellId) (l : List CellId) : named c.val l = true ↔ c ∈ l := by
  simp only [named, List.any_eq_true, beq_iff_eq]
  exact ⟨fun ⟨_, h, e⟩ => Fin.ext e ▸ h, fun h => ⟨c, h, rfl⟩⟩

/-- The orders of a branch that keeps nothing of segment `id`. -/
theorem Branch.order_mem_forget_queue (br : Branch) (id : SegId) (o : Order) :
    .order o ∈ (br.forget id).queue ↔ .order o ∈ br.queue ∧ o.seg ≠ id := by
  simp [Branch.forget, Entry.isOrderOf]
theorem Branch.mem_forget_backlog (br : Branch) (id : SegId) (o : Order) :
    o ∈ (br.forget id).backlog ↔ o ∈ br.backlog ∧ o.seg ≠ id := by
  simp [Branch.forget]
theorem Branch.mem_forget_poll (br : Branch) (id : SegId) (e : PollEntry) :
    e ∈ (br.forget id).poll ↔ e ∈ br.poll ∧ e.seg ≠ id := by
  simp [Branch.forget]
theorem Branch.forget_bus_order (br : Branch) (id : SegId) (o : Order) (l : Nat) :
    (br.forget id).bus = some { call := .entry (.order o), left := l } ↔
      br.bus = some { call := .entry (.order o), left := l } ∧ o.seg ≠ id := by
  simp only [Branch.forget, Option.filter_eq_some_iff]
  simp [Transaction.isOrderOf, Entry.isOrderOf]

end Machine
end Sys2Proof
end

