-- ==== Sys2Proof/Laws/Quiet.lean ====
section
/-! SUPPORT. What the buses can do at the end of an event, said once: a property that is `Quiet` is kept by every operation of the
arbiter and of the event's end. They touch no slot, no cell, no entry of the grant queue, no batch and no sense record; a branch
only runs on (`Runs`), a link only sends (`Sends`). -/

namespace Sys2Proof.Machine

/-- A change of a segment record that leaves all but its state and its continuation mark, and is no grant. -/
structure SegOk (f : Segment → Segment) : Prop where
  slot : ∀ g, (f g).slot = g.slot
  body : ∀ g, (f g).body = g.body
  tag : ∀ g, (f g).tag = g.tag
  batch : ∀ g, (f g).batch = g.batch
  granted : ∀ g, (f g).state = .granted → g.state = .granted ∧ (g.continuation = true → (f g).continuation = true)

/-- A segment becomes ACTIVE (R97, R85). -/
theorem SegOk.active : SegOk fun g => { g with state := .active, continuation := false } :=
  ⟨fun _ => rfl, fun _ => rfl, fun _ => rfl, fun _ => rfl, fun _ h => by cases h⟩
/-- A segment goes back to CHAINED (R47). -/
theorem SegOk.chained : SegOk fun g => { g with state := .chained, continuation := false } :=
  ⟨fun _ => rfl, fun _ => rfl, fun _ => rfl, fun _ => rfl, fun _ h => by cases h⟩
/-- A look-ahead receives the continuation mark (R95). -/
theorem SegOk.mark : SegOk fun g => { g with continuation := true } :=
  ⟨fun _ => rfl, fun _ => rfl, fun _ => rfl, fun _ => rfl, fun _ h => ⟨h, fun _ => rfl⟩⟩

/-- What of a poll-list entry stays as long as it stands in the list, a stall limit apart. -/
def PollEntry.key (e : PollEntry) : DropId × SegId × Nat × Bool × Nat × Bool :=
  (e.drop, e.seg, e.period, e.keep, e.ackTime, e.finalMark)

/-- What the arbiter can make of a branch (R92, R93, R106, R111). -/
structure Runs (old new : Branch) : Prop where
  poll : new.poll.map PollEntry.key = old.poll.map PollEntry.key
  settling : ∀ d, (new.drops.get d).settling = (old.drops.get d).settling
  lastDone : ∀ d, (new.drops.get d).lastDone = (old.drops.get d).lastDone
  access : new.access = old.access ∨ (old.access = .taking ∧ new.access = .taken)
  bus : old.bus.isSome = true → new.bus = old.bus
  waits : ∀ o ∈ old.orders, o.wait ≠ none → o ∈ new.orders
  orders : ∀ o ∈ new.orders, o ∈ old.orders
  halting : new.halting = true → old.halting = true
  rolls : new.rollsDone = old.rollsDone ∨ new.rollsDone = 0

theorem Runs.refl (br : Branch) : Runs br br where
  poll := rfl
  settling _ := rfl
  lastDone _ := rfl
  access := .inl rfl
  bus _ := rfl
  waits _ h _ := h
  orders _ h := h
  halting h := h
  rolls := .inl rfl

theorem Runs.trans {a b c : Branch} (h : Runs a b) (k : Runs b c) : Runs a c where
  poll := k.poll.trans h.poll
  settling d := (k.settling d).trans (h.settling d)
  lastDone d := (k.lastDone d).trans (h.lastDone d)
  access := by
    rcases k.access with e | ⟨e1, e2⟩
    · rw [e]; exact h.access
    · rcases h.access with f | ⟨_, f⟩
      · exact .inr ⟨f ▸ e1, e2⟩
      · rw [e1] at f; cases f
  bus hb := by rw [k.bus (by rw [h.bus hb]; exact hb), h.bus hb]
  waits o ho hw := k.waits o (h.waits o ho hw) hw
  orders o ho := h.orders o (k.orders o ho)
  halting e := h.halting (k.halting e)
  rolls := by
    rcases k.rolls with e | e
    · rw [e]; exact h.rolls
    · exact .inr e

/-- What the end of an event can make of a link: frames made on it, its sync timer started (R118, R120). -/
structure Sends (old new : Link) : Prop where
  rest : { new with sent := [], syncTimer := none } = { old with sent := [], syncTimer := none }
  sent : old.sent <+: new.sent

theorem Sends.refl (l : Link) : Sends l l := ⟨rfl, List.prefix_refl _⟩
theorem Sends.trans {a b c : Link} (h : Sends a b) (k : Sends b c) : Sends a c :=
  ⟨k.rest.trans h.rest, h.sent.trans k.sent⟩

/-- Kept by every operation of the arbiter and of the end of an event. -/
structure Quiet (P : State → Prop) : Prop where
  seg : ∀ {s : State} id {f : Segment → Segment}, SegOk f → P s → P (s.updSeg id f)
  free : ∀ {s : State} x, P s → P { s with free := x }
  scanDue : ∀ {s : State} x, P s → P { s with scanDue := x }
  haltOut : ∀ {s : State} x, P s → P { s with haltOut := x }
  branches : ∀ {s : State} x, (∀ b, Runs (s.branch b) (x.get b)) → P s → P { s with branches := x }
  census : ∀ {s : State} x, P s → P { s with census := x }
  links : ∀ {s : State} x, (∀ k, Sends (s.link k) (x.get k)) → P s → P { s with links := x }
  phase : ∀ {s : State} x, P s → P { s with phase := x }
  sector : ∀ {s : State} x, (s.sector = .stopping ∨ s.sector = .starting) → x ≠ .unconfigured → P s → P { s with sector := x }
  raise : ∀ {s : State} nt, P s → P (s.raise nt)
  answer : ∀ {s : State} p r f, P s → P (s.answer p r f)

theorem foldl_keeps {α : Type} {P : State → Prop} {f : State → α → State} {l : List α} {s : State}
    (hf : ∀ s a, P s → P (f s a)) (h : P s) : P (l.foldl f s) := by
  induction l generalizing s with
  | nil => exact h
  | cons a l ih => exact ih (hf s a h)

theorem takeFirst_mem {α : Type} {p : α → Bool} {l : List α} {a : α} {r : List α} (h : takeFirst p l = some (a, r)) :
    p a = true ∧ ∀ x, x ∈ l ↔ x = a ∨ x ∈ r := by
  induction l generalizing r with
  | nil => simp [takeFirst] at h
  | cons b l ih =>
    simp only [takeFirst] at h
    split at h
    · rename_i hb
      cases h
      exact ⟨hb, fun x => by simp⟩
    · cases e : takeFirst p l with
      | none => simp [e] at h
      | some y =>
        obtain ⟨c, t⟩ := y
        simp only [e, Option.map_some, Option.some.injEq, Prod.mk.injEq] at h
        obtain ⟨rfl, rfl⟩ := h
        obtain ⟨h1, h2⟩ := ih e
        refine ⟨h1, fun x => ?_⟩
        rw [List.mem_cons, List.mem_cons, h2 x]
        tauto

/-- The step orders of a branch that wait. -/
theorem Branch.mem_orders (br : Branch) (o : Order) : o ∈ br.orders ↔ Entry.order o ∈ br.queue ∨ o ∈ br.backlog := by
  simp only [Branch.orders, List.mem_append, List.mem_filterMap]
  constructor
  · rintro (⟨e, he, h⟩ | h)
    · cases e <;> simp at h
      subst h
      exact .inl he
    · exact .inr h
  · rintro (h | h)
    · exact .inl ⟨_, h, rfl⟩
    · exact .inr h

/-- A change of a branch that leaves its step orders and its bus, its drops' settle state and its accesses. -/
theorem Runs.of_same {old new : Branch} (hp : new.poll.map PollEntry.key = old.poll.map PollEntry.key)
    (hs : ∀ d, (new.drops.get d).settling = (old.drops.get d).settling)
    (hl : ∀ d, (new.drops.get d).lastDone = (old.drops.get d).lastDone) (ha : new.access = old.access)
    (hb : old.bus.isSome = true → new.bus = old.bus) (ho : ∀ o, o ∈ new.orders ↔ o ∈ old.orders)
    (hh : new.halting = true → old.halting = true) (hr : new.rollsDone = old.rollsDone) : Runs old new :=
  ⟨hp, hs, hl, .inl ha, hb, fun o h _ => (ho o).2 h, fun o h => (ho o).1 h, hh, .inl hr⟩

section Quiet
variable {P : State → Prop} (hP : Quiet P) {s : State} (h : P s)
include hP h

theorem Quiet.updBranch (b : BranchId) (f : Branch → Branch) (hf : Runs (s.branch b) (f (s.branch b))) :
    P (s.updBranch b f) := by
  refine hP.branches _ (fun c => ?_) h
  by_cases e : b = c
  · subst e; rw [Table.get_upd_self]; exact hf
  · rw [Table.get_upd_ne _ _ e]; exact Runs.refl _

theorem Quiet.updLink (k : LinkId) (f : Link → Link) (hf : Sends (s.link k) (f (s.link k))) : P (s.updLink k f) := by
  refine hP.links _ (fun c => ?_) h
  by_cases e : k = c
  · subst e; rw [Table.get_upd_self]; exact hf
  · rw [Table.get_upd_ne _ _ e]; exact Sends.refl _

theorem Quiet.causeScan : P s.causeScan := hP.scanDue _ h
theorem Quiet.send (k : LinkId) (f : BorderFrame) : P (s.send k f) :=
  hP.updLink h k _ ⟨rfl, List.prefix_append _ _⟩

theorem Quiet.sendRelease (k : LinkId) (l : List CellId) : P (s.sendRelease k l) := by
  unfold State.sendRelease
  split
  · exact h
  · exact hP.send h k _

theorem Quiet.flushReleases (old : State) : P (s.flushReleases old) := by
  unfold State.flushReleases
  refine foldl_keeps (P := P) (fun t k h => ?_) h
  exact hP.sendRelease h k _

theorem Quiet.settleEvent (old : State) : P (s.settleEvent old) := by
  exact hP.free _ (hP.scanDue _ (hP.flushReleases h old))

theorem Quiet.answerService (r : Result) (f : AnswerFields) : P (s.answerService r f) := by
  unfold State.answerService
  split
  · exact hP.answer _ _ _ h
  · exact h

omit hP h in
theorem map_key_of_mark (l : List PollEntry) (f : PollEntry → PollEntry) (hf : ∀ e, (f e).key = e.key) :
    (l.map f).map PollEntry.key = l.map PollEntry.key := by
  rw [List.map_map]
  exact List.map_congr_left fun e _ => hf e

theorem Quiet.fillPlace (b : BranchId) : P (s.fillPlace b) := by
  unfold State.fillPlace
  dsimp only
  split
  · exact h
  · split
    · refine hP.updBranch h b _ (Runs.of_same (map_key_of_mark _ _ fun e => ?_) (fun _ => rfl) (fun _ => rfl) rfl (fun _ => rfl)
        (fun o => by simp [Branch.mem_orders]) id rfl)
      split <;> rfl
    · split
      · rename_i ht
        have hm := (takeFirst_mem ht).2
        refine hP.updBranch h b _ (Runs.of_same rfl (fun _ => rfl) (fun _ => rfl) rfl (fun _ => rfl)
          (fun o => ?_) id rfl)
        simp only [Branch.mem_orders, List.mem_append, List.mem_singleton, Entry.order.injEq, hm o]
        tauto
      · split
        · exact hP.updBranch h b _ (Runs.of_same rfl (fun _ => rfl) (fun _ => rfl) rfl (fun _ => rfl)
            (fun o => by simp [Branch.mem_orders]) id rfl)
        · split
          · exact hP.updBranch h b _ (Runs.of_same rfl (fun _ => rfl) (fun _ => rfl) rfl (fun _ => rfl)
              (fun o => by simp [Branch.mem_orders]) id rfl)
          · split
            · exact hP.updBranch h b _ (Runs.of_same rfl (fun _ => rfl) (fun _ => rfl) rfl (fun _ => rfl)
                (fun o => by simp [Branch.mem_orders]) id rfl)
            · exact h

theorem Quiet.fillPlaces (b : BranchId) : P (s.fillPlaces b) := by
  unfold State.fillPlaces
  refine foldl_keeps (P := P) (fun t _ h => ?_) h
  exact hP.fillPlace h b

theorem Quiet.sendOrder (b : BranchId) (o : Order) (hb : (s.branch b).bus = none) : P (s.sendOrder b o) := by
  have hr (x : Option Transaction) : Runs (s.branch b) { s.branch b with bus := x } :=
    Runs.of_same rfl (fun _ => rfl) (fun _ => rfl) rfl (fun e => by simp [hb] at e) (fun o => by simp [Branch.mem_orders]) id rfl
  unfold State.sendOrder
  split
  · exact hP.updBranch h b _ (hr _)
  · have h1 := hP.seg o.seg SegOk.active h
    dsimp only
    split
    · exact hP.updBranch (hP.seg _ SegOk.mark h1) b _ (hr _)
    · exact hP.updBranch h1 b _ (hr _)

theorem Quiet.sendEntry (b : BranchId) (e : Entry) (hb : (s.branch b).bus = none) : P (s.sendEntry b e) := by
  have hbus {x : Option Transaction} : (s.branch b).bus.isSome = true → x = (s.branch b).bus := fun e => by simp [hb] at e
  unfold State.sendEntry
  split
  · exact hP.sendOrder h b _ hb
  · refine hP.updBranch h b _ (Runs.of_same rfl (fun d => ?_) (fun d => ?_) rfl hbus (fun o => by simp [Branch.mem_orders]) id rfl)
    all_goals
      simp only [Table.upd, Table.get_set]
      split
      · rename_i he; rw [he]
      · rfl
  · refine hP.updBranch h b _ (Runs.of_same (map_key_of_mark _ _ fun e => ?_) (fun d => rfl) (fun d => rfl) rfl hbus
      (fun o => by simp [Branch.mem_orders]) id rfl)
    split <;> rfl
  · exact hP.updBranch h b _ (Runs.of_same rfl (fun _ => rfl) (fun _ => rfl) rfl hbus (fun o => by simp [Branch.mem_orders]) id rfl)
  · exact hP.updBranch h b _ (Runs.of_same rfl (fun _ => rfl) (fun _ => rfl) rfl hbus (fun o => by simp [Branch.mem_orders]) id rfl)

theorem Quiet.enterSector (st : SectorState) (h0 : s.sector = .stopping ∨ s.sector = .starting) (h1 : st ≠ .unconfigured) :
    P (s.enterSector st) := hP.raise _ (hP.sector st h0 h1 h)

theorem Quiet.haltReported (b : BranchId) : P (s.haltReported b) := by
  unfold State.haltReported
  split
  · rename_i hs
    dsimp only
    split
    · exact hP.enterSector (hP.haltOut _ h) .stopped (.inl hs) (by decide)
    · exact hP.haltOut _ h
  · exact h

theorem Quiet.finishHalt (b : BranchId) : P (s.finishHalt b) := by
  unfold State.finishHalt
  dsimp only
  split
  · exact hP.haltReported (hP.updBranch h b _ (Runs.of_same rfl (fun _ => rfl) (fun _ => rfl) rfl (fun _ => rfl)
      (fun o => by simp [Branch.mem_orders]) (fun e => by cases e) rfl)) b
  · exact h

theorem Quiet.sendHalt (b : BranchId) (hb : (s.branch b).bus = none) : P (s.sendHalt b) := by
  refine hP.finishHalt (hP.updBranch h b _ (Runs.of_same
    (map_key_of_mark _ (fun e => { e with haltMark := true }) fun e => rfl) (fun d => by simp) (fun d => by simp) rfl
      (fun e => by simp [hb] at e) (fun o => by simp [Branch.mem_orders]) id rfl)) b

omit hP h in
theorem State.ready_wait {b : BranchId} {o : Order} (hr : s.ready b (.order o) = true) : o.wait = none := by
  simp only [State.ready, Bool.and_eq_true, Option.isNone_iff_eq_none] at hr
  exact hr.1

theorem Quiet.startBus (b : BranchId) : P (s.startBus b) := by
  unfold State.startBus
  dsimp only
  split
  · exact h
  · rename_i hb
    have hb' : (s.branch b).bus = none := by simpa using hb
    split
    · exact hP.sendHalt h b hb'
    · split
      · rename_i e rest ht
        obtain ⟨hr, hm⟩ := takeFirst_mem ht
        refine hP.sendEntry (hP.updBranch h b _ ⟨rfl, fun _ => rfl, fun _ => rfl, .inl rfl, fun _ => rfl, fun o ho hw => ?_,
          fun o ho => ?_, id, .inl rfl⟩) b e (by simp [hb'])
        · rw [Branch.mem_orders, hm] at ho
          rw [Branch.mem_orders]
          rcases ho with (ho | ho) | ho
          · subst ho
            exact absurd (State.ready_wait hr) hw
          · exact .inl ho
          · exact .inr ho
        · rw [Branch.mem_orders] at ho ⊢
          rw [hm]
          tauto
      · exact h

theorem Quiet.takeOver (b : BranchId) : P (s.takeOver b) := by
  unfold State.takeOver
  split
  · rename_i ht
    simp only [Bool.and_eq_true, decide_eq_true_eq] at ht
    exact hP.answerService (hP.updBranch h b _ ⟨rfl, fun _ => rfl, fun _ => rfl, .inr ⟨ht.1, rfl⟩, fun _ => rfl,
      fun o ho _ => ho, fun o ho => ho, id, .inl rfl⟩) _ _
  · exact h

theorem Quiet.arbitrate (b : BranchId) : P (s.arbitrate b) :=
  hP.takeOver (hP.fillPlaces (hP.startBus (hP.fillPlaces h b) b) b) b

theorem Quiet.arbitrateAll : P s.arbitrateAll := by
  unfold State.arbitrateAll
  refine foldl_keeps (P := P) (fun t b h => ?_) h
  exact hP.arbitrate h b

theorem Quiet.beginCensus (c : Census) : P (s.beginCensus c) := by
  unfold State.beginCensus
  refine hP.branches (s := { s with census := c }) _ (fun b => ?_) (hP.census c h)
  rw [Table.get_map]
  exact ⟨rfl, fun _ => rfl, fun _ => rfl, .inl rfl, fun _ => rfl, fun o ho _ => ho, fun o ho => ho, id, .inr rfl⟩

theorem Quiet.sendSync (k : LinkId) : P (s.sendSync k) := hP.updLink (hP.send h k _) k _ ⟨rfl, List.prefix_refl _⟩

theorem Quiet.endStartUp : P s.endStartUp := by
  unfold State.endStartUp
  dsimp only
  split
  · rename_i hs
    refine hP.enterSector (hP.phase _ h) _ (.inr hs) ?_
    split <;> decide
  · exact hP.phase _ h

theorem Quiet.advance : P s.advance := by
  unfold State.advance
  split
  · exact hP.arbitrateAll (hP.beginCensus (hP.phase .census h) .startup)
  · split
    · refine hP.endStartUp (foldl_keeps (P := P) (fun t k h => ?_) ?_)
      · exact hP.sendSync h k
      · exact hP.phase (s := { s with census := .none }) .sync (hP.census .none h)
    · split
      · exact hP.answerService (hP.census .none h) .ok .none
      · exact h

theorem Quiet.runBuses : P s.runBuses := hP.advance (hP.arbitrateAll h)

theorem Quiet.finish (old : State) : P (s.finish old) := hP.settleEvent (hP.runBuses h) old

end Quiet

/-! ### What the end of an event leaves -/

/-- What no operation of the buses touches, as it was in `s`. -/
structure State.Rests (s t : State) : Prop where
  slots : t.slots = s.slots
  cells : t.cells = s.cells
  queue : t.queue = s.queue
  dwell : t.dwell = s.dwell
  batches : t.batches = s.batches
  endCount : t.endCount = s.endCount
  loadError : t.loadError = s.loadError
  senses : t.senses = s.senses
  retired : t.retired = s.retired
  stream : t.stream = s.stream
  armed : t.armed = s.armed
  startStop : t.startStop = s.startStop
  now : t.now = s.now
  branches : ∀ b, Runs (s.branch b) (t.branch b)
  links : ∀ k, Sends (s.link k) (t.link k)
  sector : s.sector ≠ .stopping → s.sector ≠ .starting → t.sector = s.sector
  empty : ∀ id, s.seg id = none → t.seg id = none
  kept : ∀ id g, s.seg id = some g → ∃ h, t.seg id = some h ∧ h.slot = g.slot ∧ h.body = g.body ∧ h.tag = g.tag ∧ h.batch = g.batch
  granted : ∀ id h, t.seg id = some h → h.state = .granted →
    ∃ g, s.seg id = some g ∧ g.state = .granted ∧ (g.continuation = true → h.continuation = true)

theorem State.Rests.refl (s : State) : s.Rests s :=
  ⟨rfl, rfl, rfl, rfl, rfl, rfl, rfl, rfl, rfl, rfl, rfl, rfl, rfl, fun _ => Runs.refl _, fun _ => Sends.refl _,
    fun _ _ => rfl, fun _ h => h, fun _ g h => ⟨g, h, rfl, rfl, rfl, rfl⟩, fun _ g h e => ⟨g, h, e, fun e => e⟩⟩

theorem State.quiet_rests (s : State) : Quiet (State.Rests s) where
  seg := @fun t id f hf h => { h with
    branches := h.branches, links := h.links
    empty := fun i e => by
      have := h.empty i e
      simp only [State.seg, State.updSeg, Table.upd, Table.get_set] at this ⊢
      split
      · rename_i hi; subst hi; simp [this]
      · exact this
    kept := fun i g e => by
      obtain ⟨x, hx, h1, h2, h3, h4⟩ := h.kept i g e
      by_cases hi : id = i
      · subst hi
        refine ⟨f x, ?_, (hf.slot x).trans h1, (hf.body x).trans h2, (hf.tag x).trans h3, (hf.batch x).trans h4⟩
        simp only [State.seg, State.updSeg, Table.get_upd_self] at hx ⊢
        rw [hx]; rfl
      · refine ⟨x, ?_, h1, h2, h3, h4⟩
        simp only [State.seg, State.updSeg, Table.get_upd_ne _ _ hi] at hx ⊢
        exact hx
    granted := fun i x e hx => by
      by_cases hi : id = i
      · subst hi
        simp only [State.seg, State.updSeg, Table.get_upd_self] at e
        cases ht : t.pool.get id with
        | none => rw [ht] at e; cases e
        | some y =>
          rw [ht] at e
          cases e
          obtain ⟨h1, h2⟩ := hf.granted y hx
          obtain ⟨g, h3, h4, h5⟩ := h.granted id y ht h1
          exact ⟨g, h3, h4, fun c => h2 (h5 c)⟩
      · refine h.granted i x ?_ hx
        simp only [State.seg, State.updSeg, Table.get_upd_ne _ _ hi] at e ⊢
        exact e }
  free _ h := { h with branches := h.branches, links := h.links, empty := h.empty, kept := h.kept, granted := h.granted }
  scanDue _ h := { h with branches := h.branches, links := h.links, empty := h.empty, kept := h.kept, granted := h.granted }
  haltOut _ h := { h with branches := h.branches, links := h.links, empty := h.empty, kept := h.kept, granted := h.granted }
  branches _ hx h := { h with branches := fun b => (h.branches b).trans (hx b), links := h.links, empty := h.empty, kept := h.kept, granted := h.granted }
  census _ h := { h with branches := h.branches, links := h.links, empty := h.empty, kept := h.kept, granted := h.granted }
  links _ hx h := { h with branches := h.branches, links := fun k => (h.links k).trans (hx k), empty := h.empty, kept := h.kept, granted := h.granted }
  phase _ h := { h with branches := h.branches, links := h.links, empty := h.empty, kept := h.kept, granted := h.granted }
  sector x hx _ h := { h with
    branches := h.branches, links := h.links, empty := h.empty, kept := h.kept, granted := h.granted
    sector := fun h1 h2 => by
      have := h.sector h1 h2
      rcases hx with e | e <;> rw [e] at this
      · exact absurd this.symm h1
      · exact absurd this.symm h2 }
  raise _ h := { h with branches := h.branches, links := h.links, empty := h.empty, kept := h.kept, granted := h.granted }
  answer _ _ _ h := { h with branches := h.branches, links := h.links, empty := h.empty, kept := h.kept, granted := h.granted }

/-- The end of an event leaves what `State.Rests` names. -/
theorem State.rests_finish (s old : State) : s.Rests (s.finish old) := (State.quiet_rests s).finish (State.Rests.refl s) old
/-- A branch's arbiter leaves what `State.Rests` names. -/
theorem State.rests_arbitrate (s : State) (b : BranchId) : s.Rests (s.arbitrate b) :=
  (State.quiet_rests s).arbitrate (State.Rests.refl s) b

end Sys2Proof.Machine
end

