-- ==== Sys2Proof/Laws/Stable.lean ====
section
/-! SUPPORT. What the events of the part can do to its state, said once: a property of states that is `Stable` is kept by every
shared operation. Store, working copies of the store, straps, lines, timebase and the queue of commands are touched by none of
them, and the sector state neither enters nor leaves UNCONFIGURED. -/

namespace Sys2Proof.Machine

/-- A grant queue that came of another with no slot joining: its slots in the same order, some gone, and no count above 8 where
there was none (R73, R83). -/
structure Shrinks (old new : List QEntry) : Prop where
  slots : (new.map QEntry.slot).Sublist (old.map QEntry.slot)
  counts : (∀ e ∈ old, e.passOver ≤ barrierCount) → ∀ e ∈ new, e.passOver ≤ barrierCount

theorem Shrinks.filter (l : List QEntry) (p : QEntry → Bool) : Shrinks l (l.filter p) where
  slots := List.filter_sublist.map _
  counts h e he := h e (List.mem_filter.1 he).1

/-- A change of entries that keeps the slot and no count above 8. -/
structure EntryOk (f : QEntry → QEntry) : Prop where
  slot : ∀ e, (f e).slot = e.slot
  count : ∀ e, e.passOver ≤ barrierCount → (f e).passOver ≤ barrierCount

theorem Shrinks.map (l : List QEntry) {f : QEntry → QEntry} (hf : EntryOk f) : Shrinks l (l.map f) where
  slots := by
    rw [List.map_map]
    have : QEntry.slot ∘ f = QEntry.slot := funext hf.slot
    rw [this]
  counts h e he := by
    obtain ⟨a, ha, rfl⟩ := List.mem_map.1 he
    exact hf.count a (h a ha)

theorem EntryOk.ite {f : QEntry → QEntry} (hf : EntryOk f) (p : QEntry → Prop) [DecidablePred p] :
    EntryOk fun e => if p e then f e else e where
  slot e := by
    split
    · exact hf.slot e
    · rfl
  count e h := by
    split
    · exact hf.count e h
    · exact h

/-- A change of a slot record that leaves where its robot stands, its patrol set and its fault code, and adds no segment. -/
structure SlotOk (f : Slot → Slot) : Prop where
  stand : ∀ sl, (f sl).stand = sl.stand
  patrol : ∀ sl, (f sl).patrol = sl.patrol
  fault : ∀ sl, (f sl).fault = sl.fault
  chain : ∀ sl, (f sl).chain.Sublist sl.chain

/-- A change of the slot's state alone. -/
theorem SlotOk.state (f : Slot → SlotState) : SlotOk fun sl => { sl with state := f sl } :=
  ⟨fun _ => rfl, fun _ => rfl, fun _ => rfl, fun _ => List.Sublist.refl _⟩
/-- A segment leaves the chain. -/
theorem SlotOk.leave (id : SegId) : SlotOk fun sl => { sl with chain := sl.chain.filter fun i => decide (i ≠ id) } :=
  ⟨fun _ => rfl, fun _ => rfl, fun _ => rfl, fun _ => List.filter_sublist⟩

/-- A change of the cells that leaves each FIXED cell FIXED (R25). -/
def CellOk (f : Nat → Cell → Cell) : Prop := ∀ i r, r.owner = .fixed → (f i r).owner = .fixed

/-- Kept by every change that an event of the part can make while no robot's stand changes, outside a reset and outside the
requests that write a setting. -/
structure Calm (P : State → Prop) : Prop extends Quiet P where
  updSlot : ∀ {s : State} n {f : Slot → Slot}, SlotOk f → P s → P (s.updSlot n f)
  updCells : ∀ {s : State} {f : Nat → Cell → Cell}, CellOk f → P s → P (s.updCells f)
  takeCells : ∀ {s : State} n l, (∀ c ∈ l, (s.cell c).owner ≠ .fixed) → P s → P (s.takeCells n l)
  close : ∀ {s : State} id, P s → P { s with pool := s.pool.set id none }
  queue : ∀ {s : State} x, Shrinks s.queue x → P s → P { s with queue := x }
  joinQueue : ∀ {s : State} n, s.inQueue n = false → P s → P (s.joinQueue n)
  dwell : ∀ {s : State} x, P s → P { s with dwell := x }
  startStop : ∀ {s : State} x, P s → P { s with startStop := x }
  anyBranch : ∀ {s : State} b f, P s → P (s.updBranch b f)
  anyLink : ∀ {s : State} k f, P s → P (s.updLink k f)
  now : ∀ {s : State} x, P s → P { s with now := x }
  enter : ∀ {s : State} x, s.sector ≠ .unconfigured → x ≠ .unconfigured → P s → P { s with sector := x }
  count : ∀ {s : State} b o, P s → P (s.updBatch b (Batch.count o))
  endBatches : ∀ {s : State}, P s → P s.endBatches

/-- Kept by every such change, a robot's stand and a slot's fault among them. -/
structure Stable (P : State → Prop) : Prop extends Calm P where
  moveStand : ∀ {s : State} n st, P s → P (s.moveStand n st)
  fault : ∀ {s : State} n c, P s → P (s.updSlot n fun sl => { sl with state := .faulted, fault := some c })

section Calm
variable {P : State → Prop} (hP : Calm P) {s : State} (h : P s)
include hP h

/-! ### Records -/

theorem Calm.updBranch (b : BranchId) (f : Branch → Branch) : P (s.updBranch b f) := hP.anyBranch b f h
theorem Calm.updLink (k : LinkId) (f : Link → Link) : P (s.updLink k f) := hP.anyLink k f h
theorem Calm.updSeg (id : SegId) {f : Segment → Segment} (hf : SegOk f) : P (s.updSeg id f) := hP.seg id hf h
theorem Calm.updEntry (n : SlotId) {f : QEntry → QEntry} (hf : EntryOk f) : P (s.updEntry n f) :=
  hP.queue _ (Shrinks.map _ (hf.ite _)) h
theorem Calm.clockTo (t : Nat) : P (s.clockTo t) := hP.now _ h

theorem Calm.enterSector (st : SectorState) (h0 : s.sector ≠ .unconfigured) (h1 : st ≠ .unconfigured) :
    P (s.enterSector st) := hP.raise _ (hP.enter st h0 h1 h)

/-! ### Cells -/

theorem Calm.castShadow (n : SlotId) : P (s.castShadow n) := by
  unfold State.castShadow
  refine hP.updCells (fun i r hr => ?_) h
  split <;> exact hr

theorem Calm.liftShadow (n : SlotId) : P (s.liftShadow n) := by
  unfold State.liftShadow
  refine hP.updCells (fun i r hr => ?_) h
  split <;> exact hr

theorem Calm.dropOrphans : P s.dropOrphans := by
  unfold State.dropOrphans
  refine hP.updCells (fun i r hr => ?_) h
  simp [Cell.dropOrphan, hr]

theorem Calm.rehold (n : SlotId) : P (s.rehold n) := by
  unfold State.rehold State.holdOnly
  refine hP.updCells (fun i r hr => ?_) h
  simp [hr]

theorem Calm.freePending (n : SlotId) : P (s.freePending n) := by
  unfold State.freePending
  refine hP.updCells (fun i r hr => ?_) h
  simp [hr]

theorem Calm.settleCells (n : SlotId) : P (s.settleCells n) := hP.dropOrphans (hP.rehold h n)

/-! ### The grant queue -/

theorem Calm.withdrawClaim (n : SlotId) : P (s.withdrawClaim n) := by
  unfold State.withdrawClaim
  split
  · split
    · have h' := hP.updEntry (hP.freePending h n) n (f := fun e => { e with pendingClaim := false }) ⟨fun _ => rfl, fun _ h => h⟩
      dsimp only
      split
      · exact hP.updLink h' _ _
      · exact h'
    · exact h
  · exact h

theorem Calm.settleState (n : SlotId) : P (s.settleState n) := hP.updSlot n (SlotOk.state _) h
theorem Calm.leaveQueue (n : SlotId) : P (s.leaveQueue n) :=
  hP.updSlot n (by constructor <;> intro sl <;> split <;> rfl)
    (hP.queue _ (Shrinks.filter _ _) (hP.withdrawClaim h n))

theorem Calm.judge (n : SlotId) : P (s.judge n) := by
  unfold State.judge
  split
  · split
    · exact h
    · exact hP.leaveQueue h n
  · rename_i hn
    split
    · exact hP.joinQueue n (by simpa using hn) h
    · exact h

theorem Calm.judgeAll : P s.judgeAll := by
  unfold State.judgeAll
  refine foldl_keeps (P := P) (fun t n h => ?_) h
  exact hP.judge h n

/-! ### Segments and slots -/

theorem Calm.closeNotice (g : Segment) (o : SegOutcome) : P (s.closeNotice g o) := by
  cases o
  · exact hP.raise _ h
  · exact hP.raise _ h
  · exact h

theorem Calm.withdrawClaimFor (n : SlotId) (id : SegId) : P (s.withdrawClaimFor n id) := by
  unfold State.withdrawClaimFor
  split
  · split
    · exact hP.withdrawClaim h n
    · exact h
  · exact h

theorem Calm.closeSeg (id : SegId) (o : SegOutcome) : P (s.closeSeg id o) := by
  unfold State.closeSeg
  split
  · exact h
  · refine hP.updSlot _ (SlotOk.leave id) (hP.close _ (hP.updBranch (hP.withdrawClaimFor (hP.closeNotice ?_ _ _) _ _) _ _))
    split
    · exact hP.count _ _ h
    · exact h

theorem Calm.skipWhere (n : SlotId) (p : Segment → Option SkipReason) : P (s.skipWhere n p) := by
  unfold State.skipWhere
  refine foldl_keeps (P := P) (fun s x h => ?_) h
  split
  · exact hP.closeSeg h _ _
  · exact h

/-! ### Orders -/

theorem Calm.handOver (n : SlotId) (id : SegId) (g : Segment) : P (s.handOver n id g) := hP.updBranch h _ _
theorem Calm.removeOrder (n : SlotId) (id : SegId) : P (s.removeOrder n id) := hP.updBranch h _ _

/-! ### Grants, scans, withdrawals -/

theorem Calm.dispatch (n : SlotId) (id : SegId) : P (s.dispatch n id) := by
  unfold State.dispatch
  split
  · exact h
  · dsimp only
    split
    · exact hP.updSeg (hP.dwell _ (hP.updSlot n (SlotOk.state _) h)) _ SegOk.active
    · exact hP.handOver (hP.updSlot n (SlotOk.state _) h) _ _ _

theorem Calm.withdrawSeg (n : SlotId) (id : SegId) (g : Segment) : P (s.withdrawSeg n id g) := by
  unfold State.withdrawSeg
  dsimp only
  split
  · exact hP.closeSeg (hP.removeOrder h n id) _ _
  · exact hP.updSeg (hP.removeOrder h n id) _ SegOk.chained

theorem Calm.withdrawWhere (n : SlotId) (p : Segment → Bool) : P (s.withdrawWhere n p) := by
  unfold State.withdrawWhere
  dsimp only
  split
  · exact h
  · have h' (l : List (SegId × Segment)) : P ((l.foldl (fun s x => s.withdrawSeg n x.1 x.2) s).rehold n) := by
      refine hP.rehold (foldl_keeps (P := P) (fun t x h => ?_) h) n
      exact hP.withdrawSeg h n x.1 x.2
    split
    · exact hP.settleState (h' _) n
    · exact h' _

theorem Calm.withdrawClaims : P s.withdrawClaims := by
  unfold State.withdrawClaims
  refine foldl_keeps (P := P) (fun t e h => ?_) h
  exact hP.withdrawClaim h _

theorem Calm.holdWithdrawals : P s.holdWithdrawals := by
  unfold State.holdWithdrawals
  refine hP.judgeAll (hP.withdrawClaims (foldl_keeps (P := P) (fun t n h => ?_) h))
  exact hP.withdrawWhere h n _

end Calm

section Stable
variable {P : State → Prop} (hP : Stable P) {s : State} (h : P s)
include hP h

/-! ### Ends of segments -/

theorem Stable.faultSlot (n : SlotId) (c : FaultCode) : P (s.faultSlot n c) := by
  unfold State.faultSlot
  split
  · exact h
  · exact hP.skipWhere (hP.raise _ (hP.fault n c (hP.leaveQueue h n))) _ _

theorem Stable.nextSeg (n : SlotId) : P (s.nextSeg n) := by
  unfold State.nextSeg
  split
  · exact hP.dispatch h _ _
  · exact hP.settleState h n

theorem Stable.withdrawGranted (n : SlotId) : P (s.withdrawGranted n) := by
  unfold State.withdrawGranted
  refine foldl_keeps (P := P) (fun t x h => ?_) h
  exact hP.withdrawSeg h n x.1 x.2

theorem Stable.doneSeg (n : SlotId) (id : SegId) (g : Segment) : P (s.doneSeg n id g) := by
  unfold State.doneSeg
  split
  · exact hP.nextSeg (hP.settleCells (hP.closeSeg (hP.moveStand n _ h) _ _) n) n
  · exact hP.settleCells (hP.faultSlot (hP.withdrawGranted (hP.closeSeg (hP.moveStand n _ h) _ _) n) n _) n

theorem Stable.skipRule (n : SlotId) (batch : Option Nat) : P (s.skipRule n batch) := by
  unfold State.skipRule
  split
  · exact hP.skipWhere h n _
  · exact h

theorem Stable.failSeg (n : SlotId) (id : SegId) (g : Segment) (r : FailReason) (a b : Int) : P (s.failSeg n id g r a b) := by
  unfold State.failSeg
  dsimp only
  have h' := hP.withdrawGranted (hP.skipRule (hP.closeSeg (hP.moveStand n
    ((s.slot n).stand.afterFailure r a b g.body.sweep) h) id (.failed r)) n g.batch) n
  split
  · exact hP.settleCells (hP.faultSlot h' _ _) n
  · exact hP.settleState (hP.settleCells h' n) n

theorem Stable.endFlight (b : BranchId) (d : DropId) (x y : Bool) : P (s.endFlight b d x y) := hP.updBranch h _ _

theorem Stable.applyOutcome (b : BranchId) (d : DropId) (id : SegId) (done keep : Bool) (o : SegOutcome) (x y : Int) :
    P (s.applyOutcome b d id done keep o x y) := by
  unfold State.applyOutcome
  dsimp only
  split
  · exact hP.doneSeg (hP.endFlight h _ _ _ _) _ _ _
  · exact hP.failSeg (hP.endFlight h _ _ _ _) _ _ _ _ _ _
  · exact hP.endFlight h _ _ _ _

theorem Stable.endOutcome (b : BranchId) (n : SlotId) (o : SegOutcome) : P (s.endOutcome b n o) := by
  unfold State.endOutcome
  dsimp only
  split
  · rename_i hs
    refine hP.finishHalt (hP.raise _ (hP.endBatches (hP.holdWithdrawals (hP.enter _ ?_ (by decide) (hP.judge h n))))) b
    rw [hs.2]; decide
  · exact hP.finishHalt (hP.endBatches (hP.judge h n)) b

theorem Stable.complete (b : BranchId) (d : DropId) (id : SegId) (done keep : Bool) (o : SegOutcome) (x y : Int) :
    P (s.complete b d id done keep o x y) := hP.endOutcome (hP.applyOutcome h _ _ _ _ _ _ _ _) _ _ _

theorem Stable.endDwell (n : SlotId) : P (s.endDwell n) := by
  unfold State.endDwell
  split
  · exact hP.doneSeg (hP.dwell _ h) _ _ _
  · exact h

theorem Stable.cutDwell (n : SlotId) : P (s.cutDwell n) := by
  unfold State.cutDwell
  split
  · exact hP.closeSeg (hP.dwell _ h) _ _
  · exact h

theorem Stable.silent (n : SlotId) : P (s.silent n) := by
  unfold State.silent
  split
  · exact h
  · exact h
  · exact h
  · exact hP.endBatches (hP.faultSlot (hP.rehold (hP.withdrawGranted (hP.cutDwell h n) n) n) _ _)

theorem Stable.haltOrder (b : BranchId) (o : Order) : P (s.haltOrder b o) := by
  unfold State.haltOrder
  split
  · exact hP.applyOutcome (hP.removeOrder h _ _) _ _ _ _ _ _ _ _
  · exact hP.withdrawWhere h _ _

theorem Stable.requestHalt (b : BranchId) : P (s.requestHalt b) := by
  unfold State.requestHalt
  refine hP.updBranch (foldl_keeps (P := P) (fun t o h => ?_) h) _ _
  exact hP.haltOrder h b o

theorem Stable.enterStopping (h0 : s.sector ≠ .unconfigured) : P s.enterStopping := by
  unfold State.enterStopping
  dsimp only
  refine hP.endBatches (hP.judgeAll (foldl_keeps (P := P) (fun t b h => hP.requestHalt h b) (hP.haltOut _ ?_)))
  refine foldl_keeps (P := P) (fun t n h => hP.endDwell h n) (hP.withdrawClaims ?_)
  refine foldl_keeps (P := P) (fun t n h => hP.withdrawWhere h n _) ?_
  exact hP.enterSector h _ h0 (by decide)

theorem Stable.enterHold (h0 : s.sector ≠ .unconfigured) : P s.enterHold :=
  hP.endBatches (hP.holdWithdrawals (hP.enterSector h _ h0 (by decide)))

theorem Stable.takeStop : P s.takeStop := by
  unfold State.takeStop
  split
  · rename_i hs; exact hP.enterStopping h (by rw [hs]; decide)
  · rename_i hs; exact hP.enterStopping h (by rw [hs]; decide)
  · exact hP.startStop _ h
  · exact h

end Stable

end Sys2Proof.Machine
end

