-- ==== Sys2Proof/Laws/Commands.lean ====
section
/-! SUPPORT. What each command can do to the state: a `Steady` property is kept by the meaning of every command but the resets, the
writes of the store, SET_TIMEBASE and the levels of the lines. -/

namespace Sys2Proof.Machine

/-- A change of a slot record that leaves where its robot stands, and its patrol set. -/
structure StandOk (f : Slot → Slot) : Prop where
  stand : ∀ sl, (f sl).stand = sl.stand
  patrol : ∀ sl, (f sl).patrol = sl.patrol

/-- Kept by every change that a command can make outside a reset, the store, the timebase and the levels of the lines. -/
structure Steady (P : State → Prop) : Prop extends Stable P where
  grant : ∀ {s : State} id, P s → P (s.updSeg id fun g => { g with state := .granted, continuation := false })
  anySlot : ∀ {s : State} n {f : Slot → Slot}, StandOk f → P s → P (s.updSlot n f)
  pool : ∀ {s : State} x, P s → P { s with pool := x }
  senses : ∀ {s : State} x, P s → P { s with senses := x }
  batches : ∀ {s : State} x, P s → P { s with batches := x }
  loadError : ∀ {s : State} x, P s → P { s with loadError := x }
  retired : ∀ {s : State} x, P s → P { s with retired := x }
  stream : ∀ {s : State} x, P s → P { s with stream := x }
  armed : ∀ {s : State} x, P s → P { s with armed := x }
  takeInHand : ∀ {s : State} p c q, P s → P (s.takeInHand p c q)
  refuseBusy : ∀ {s : State} p c q, P s → P (s.refuseBusy p c q)
  subscribe : ∀ {s : State} p k, P s → P (s.updPort p (Port.subscribe k))
  beginFrame : ∀ {s : State} p, P s → P (s.beginFrame p)
  lend : ∀ {s : State} k l, (∀ c ∈ l, (s.cell c).owner ≠ .fixed) → P s → P (s.lend k l)
  lineFree : ∀ {s : State} p f, P s → P (s.lineFree p f)

variable {P : State → Prop} (hP : Steady P) {s : State} (h : P s)
include hP h

theorem Steady.updSense (n : SlotId) (f : SenseRec → SenseRec) : P (s.updSense n f) := hP.senses _ h

theorem Steady.kickPorts : P s.kickPorts := by
  unfold State.kickPorts
  exact foldl_keeps (P := P) (fun t p h => hP.beginFrame p h) h

omit h in
theorem Steady.make (p : PortId) {r : Reply} (hr : P r.state) : P (r.make p) := by
  unfold Reply.make
  split
  · exact hP.answer _ _ _ hr
  · exact hr

omit hP in
theorem Steady.judgeRequest (r : Role) (c : ReqCode) (rule : State → Reply) (hr : ∀ {s}, P s → P (rule s).state) :
    P (s.judgeRequest r c rule).state := by
  unfold State.judgeRequest
  split
  · exact h
  · split
    · exact h
    · exact hr h

theorem Steady.request (p : PortId) (c : ReqCode) (seq : Nat) (rule : State → Reply) (hr : ∀ {s}, P s → P (rule s).state) :
    P (s.request p c seq rule) := by
  unfold State.request
  split
  · exact h
  · split
    · exact h
    · split
      · exact hP.kickPorts (hP.refuseBusy _ _ _ h)
      · exact hP.kickPorts (hP.make _ (Steady.judgeRequest (hP.takeInHand _ _ _ h) _ _ _ hr))

theorem Steady.badForm (p : PortId) (c q : Nat) : P (s.badForm p c q) := by
  unfold State.badForm
  split
  · exact h
  · split
    · exact h
    · split
      · exact hP.kickPorts (hP.refuseBusy _ _ _ h)
      · exact hP.kickPorts (hP.answer _ _ _ (hP.takeInHand _ _ _ h))

theorem Steady.event (f : State → State) (hf : ∀ {s}, P s → P (f s)) : P (s.event f) := by
  unfold State.event
  split
  · exact h
  · exact hP.kickPorts (hf h)

theorem Steady.busEvent (f : State → State) (hf : ∀ {s}, P s → P (f s)) : P (s.busEvent f) := by
  unfold State.busEvent
  exact hP.event h _ fun h => hP.finish (hf h) _

theorem Steady.timerEvent (b : BranchId) (t : Nat) (f : State → State) (hf : ∀ {s}, P s → P (f s)) :
    P (s.timerEvent b t f) := by
  unfold State.timerEvent
  exact hP.event h _ fun h => hP.arbitrate (hf (hP.clockTo h t)) b

/-! ### Grants and scans -/

theorem Steady.award (n : SlotId) (id : SegId) (g : Segment) (hc : ∀ c ∈ s.sweepOf n g, (s.cell c).owner ≠ .fixed) :
    P (s.award n id g) := by
  unfold State.award
  dsimp only
  have h' := hP.grant id (hP.takeCells n (s.sweepOf n g) hc h)
  split
  · exact hP.dispatch (hP.queue _ (Shrinks.filter _ _) h') _ _
  · exact hP.queue _ (Shrinks.filter _ _) h'

theorem Steady.grantSeg (n : SlotId) (id : SegId) (g : Segment) (hc : ∀ c ∈ s.sweepOf n g, (s.cell c).owner ≠ .fixed) :
    P (s.grantSeg n id g) := hP.judge (hP.award h n id g hc) n

theorem Steady.makeClaim (n : SlotId) (id : SegId) (k : LinkId) (sweep : List CellId) : P (s.makeClaim n id k sweep) :=
  hP.send (hP.updLink (hP.updEntry (hP.updCells (fun i r hr => by simp [hr]) h) _
    (f := fun e => { e with pendingClaim := true, claimLink := some k }) ⟨fun _ => rfl, fun _ h => h⟩) _ _) _ _

omit hP h in
theorem State.cellPasses_not_fixed {n : SlotId} {c : CellId} (hc : s.cellPasses n c = true) : (s.cell c).owner ≠ .fixed := by
  intro e
  simp [State.cellPasses, e] at hc

omit hP h in
theorem State.grantable_not_fixed {n : SlotId} {l : List CellId} (hg : s.grantable n l = true) :
    ∀ c ∈ l, (s.cell c).owner ≠ .fixed := by
  intro c hc
  simp only [State.grantable, Bool.and_eq_true, List.all_eq_true] at hg
  exact State.cellPasses_not_fixed (hg.1.2 c hc)

theorem Steady.judgeEntry (n : SlotId) : P (s.judgeEntry n).1 := by
  unfold State.judgeEntry
  dsimp only
  repeat' split
  all_goals first
    | exact h
    | exact hP.award h _ _ _ (State.grantable_not_fixed (by assumption))
    | exact hP.makeClaim h _ _ _ _

theorem Steady.scanEntries (l : List SlotId) : P (s.scanEntries l).1 := by
  induction l generalizing s with
  | nil => exact h
  | cons n l ih => exact ih (hP.judgeEntry h n)

theorem Steady.makeScan : P s.makeScan := by
  unfold State.makeScan
  refine foldl_keeps (P := P) (fun t n h => hP.judge h n) ?_
  refine foldl_keeps (P := P) (fun t n h => ?_) (hP.scanEntries (hP.scanDue false h) _)
  exact hP.updEntry h n ⟨fun _ => rfl, fun _ _ => Nat.min_le_left _ _⟩

/-! ### Batches -/

theorem Steady.abandon (b : Batch) : P (s.abandon b) := by
  have h1 := hP.pool (b.staging.foldl (fun t id => t.set id none) s.pool) h
  have h2 := hP.free (b.staging.foldl (fun l id => id :: l) s.free) h1
  exact hP.batches _ h2

theorem Steady.sequenceViolation : P s.sequenceViolation := by
  unfold State.sequenceViolation
  refine hP.loadError true ?_
  split
  · exact hP.abandon h _
  · exact h

theorem Steady.openBatchRule (id : Nat) : P (openBatchRule id s).state := by
  unfold Machine.openBatchRule
  repeat' split
  all_goals try dsimp only [State.reply, State.replyWith, State.deferred]
  all_goals with_reducible first | exact h | exact hP.sequenceViolation h | exact hP.batches _ h

theorem Steady.takeRecord (id : SegId) (l : List SegId) (g : Segment) : P (s.takeRecord id l g) := by
  unfold State.takeRecord
  exact hP.pool (s := { s with free := l }) _ (hP.free l h)

theorem Steady.updBatch (id : Nat) (f : Batch → Batch) : P (s.updBatch id f) := hP.batches _ h

theorem Steady.loadSegmentRule (d : Descriptor) : P (loadSegmentRule d s).state := by
  unfold Machine.loadSegmentRule
  dsimp only
  repeat' split
  all_goals try dsimp only [State.reply, State.replyWith, State.deferred]
  all_goals with_reducible first | exact h | exact hP.sequenceViolation h | exact hP.updBatch (hP.takeRecord h _ _ _) _ _

theorem Steady.chainStaged (id : SegId) : P (s.chainStaged id) := by
  unfold State.chainStaged
  split
  · exact hP.anySlot _ (by constructor <;> intro _ <;> rfl) (hP.updSeg h _ ⟨fun _ => rfl, fun _ => rfl, fun _ => rfl, fun _ => rfl, fun _ h => by cases h⟩)
  · exact h

theorem Steady.commit (b : Batch) : P (s.commit b) := by
  unfold State.commit
  have h' : P (b.staging.foldl State.chainStaged s) := foldl_keeps (P := P) (fun t id h => hP.chainStaged h id) h
  exact hP.endBatches (hP.judgeAll (hP.updBatch h' _ _))

theorem Steady.commitBatchRule (id : Nat) : P (commitBatchRule id s).state := by
  unfold Machine.commitBatchRule
  repeat' split
  all_goals try dsimp only [State.reply, State.replyWith, State.deferred]
  all_goals with_reducible first | exact h | exact hP.sequenceViolation h | exact hP.commit h _

theorem Steady.cancelOpenRule : P (cancelOpenRule s).state := by
  unfold Machine.cancelOpenRule
  split
  · exact hP.abandon h _
  · exact h

theorem Steady.abortSlot (id : Nat) (n : SlotId) : P (s.abortSlot id n) := by
  unfold State.abortSlot
  have h' := fun (p : Segment → Option SkipReason) (q : Segment → Bool) => hP.withdrawWhere (hP.skipWhere h n p) n q
  dsimp only
  repeat' split
  all_goals first | exact h' _ _ | exact hP.dispatch (h' _ _) _ _

theorem Steady.abortBatch (b : Batch) : P (s.abortBatch b) := by
  unfold State.abortBatch
  refine hP.finish (hP.endBatches (hP.judgeAll (foldl_keeps (P := P) (fun t n h => ?_) (hP.updBatch h _ _)))) s
  exact hP.abortSlot h _ n

theorem Steady.abortBatchRule (id : Nat) : P (abortBatchRule id s).state := by
  unfold Machine.abortBatchRule
  repeat' split
  all_goals try dsimp only [State.reply, State.replyWith, State.deferred]
  all_goals first | with_reducible exact h | exact hP.abortBatch h _

omit hP in
theorem Steady.queryBatchRule (id : Nat) : P (queryBatchRule id s).state := by
  unfold Machine.queryBatchRule
  dsimp only
  repeat' split
  all_goals exact h

/-! ### Slots -/

theorem Steady.holdRule : P (holdRule s).state := by
  unfold Machine.holdRule
  split
  · rename_i hs
    exact hP.finish (hP.enterHold h (by rw [hs]; decide)) s
  · exact h

theorem Steady.resumeRule : P (resumeRule s).state := by
  unfold Machine.resumeRule
  repeat' split
  all_goals try dsimp only [State.reply, State.replyWith, State.deferred]
  all_goals first | with_reducible exact h | exact hP.causeScan (hP.enterSector h _ (by assumption) (by decide))

theorem Steady.stopRule : P (stopRule s).state := hP.finish (hP.takeStop h) s

omit hP in
theorem Steady.querySlotRule (n : Nat) : P (querySlotRule n s).state := by
  unfold Machine.querySlotRule
  split <;> exact h

theorem Steady.clearFaultRule (n : Nat) : P (clearFaultRule n s).state := by
  unfold Machine.clearFaultRule
  repeat' split
  all_goals try dsimp only [State.reply, State.replyWith, State.deferred]
  all_goals first | with_reducible exact h | exact hP.judge (hP.anySlot _ (by constructor <;> intro _ <;> rfl) h) _

theorem Steady.retireAt (n : SlotId) (t : Theta) (f : Phi) (c : List CellId) : P (s.retireAt n t f c) :=
  hP.anySlot n (by constructor <;> intro _ <;> rfl) (hP.retired _ h)

theorem Steady.retireRule (n : Nat) : P (retireRule n s).state := by
  unfold Machine.retireRule
  dsimp only
  repeat' split
  all_goals try dsimp only [State.reply, State.replyWith, State.deferred]
  all_goals first | with_reducible exact h | exact hP.retireAt h _ _ _ _

theorem Steady.unretireRule (n : Nat) : P (unretireRule n s).state := by
  unfold Machine.unretireRule
  repeat' split
  all_goals try dsimp only [State.reply, State.replyWith, State.deferred]
  all_goals first | with_reducible exact h | exact hP.arbitrate (hP.anySlot _ (by constructor <;> intro _ <;> rfl) (hP.retired _ h)) _

/-! ### Metrology -/

omit hP h in
theorem State.moveStand_owner (n : SlotId) (st : Stand) (c : CellId) : ((s.moveStand n st).cell c).owner = (s.cell c).owner := by
  unfold State.moveStand
  simp only [State.cell, State.updSlot_cells]
  split
  · simp only [State.castShadow, State.updCells, Table.get_mapIdx]; split <;> rfl
  · split
    · simp only [State.liftShadow, State.updCells, Table.get_mapIdx]; split <;> rfl
    · rfl

theorem Steady.placeAt (n : SlotId) (t : Theta) (f : Phi) (l : List CellId) (hc : ∀ c ∈ l, (s.cell c).owner ≠ .fixed) :
    P (s.placeAt n t f l) := by
  unfold State.placeAt
  have h1 := hP.takeCells n l (fun c hl => by rw [State.moveStand_owner]; exact hc c hl) (hP.moveStand n (.footprint t f l) h)
  have h' := hP.judge (hP.anySlot n (f := fun sl => { sl with state := sl.state.parkedBy })
    (by constructor <;> intro _ <;> rfl) (hP.settleCells h1 n)) n
  dsimp only
  split
  · exact hP.causeScan h'
  · exact h'

omit hP h in
theorem State.measurable_not_fixed {n : SlotId} {l : List CellId} {p : Bool}
    (hm : (p && l.all (s.measurable n)) = true) : ∀ c ∈ l, (s.cell c).owner ≠ .fixed := by
  intro c hc e
  simp only [Bool.and_eq_true, List.all_eq_true] at hm
  have := hm.2 c hc
  simp [State.measurable, e] at this

omit hP h in
theorem State.holds_not_fixed {n : SlotId} {l : List CellId} (hm : l.all (s.holds n) = true) :
    ∀ c ∈ l, (s.cell c).owner ≠ .fixed := by
  intro c hc e
  have := List.all_eq_true.1 hm c hc
  simp [State.holds, e] at this

theorem Steady.measureRule (a b c : Nat) (l : List Nat) : P (measureRule a b c l s).state := by
  unfold Machine.measureRule
  repeat' split
  all_goals try dsimp only [State.reply, State.replyWith, State.deferred]
  all_goals first | with_reducible exact h | exact hP.settleEvent (hP.placeAt h _ _ _ _ (State.measurable_not_fixed (by assumption))) s

theorem Steady.scanWhen (b : Bool) : P (s.scanWhen b) := by
  unfold State.scanWhen
  split
  · exact hP.causeScan h
  · exact h

theorem Steady.setFootprintRule (a : Nat) (l : List Nat) : P (setFootprintRule a l s).state := by
  unfold Machine.setFootprintRule
  repeat' split
  all_goals try dsimp only [State.reply, State.replyWith, State.deferred]
  all_goals first | with_reducible exact h | exact hP.settleEvent (hP.scanWhen (hP.placeAt h _ _ _ _ (State.holds_not_fixed (by assumption))) _) s

theorem Steady.addTrim (n : SlotId) (b : SegBody) (t : Nat) (id : SegId) (l : List SegId) : P (s.addTrim n b t id l) :=
  hP.judge (hP.anySlot n (by constructor <;> intro _ <;> rfl) (hP.takeRecord h _ _ _)) _

theorem Steady.loadTrimRule (d : Descriptor) : P (loadTrimRule d s).state := by
  unfold Machine.loadTrimRule
  repeat' split
  all_goals try dsimp only [State.reply, State.replyWith, State.deferred]
  all_goals first | with_reducible exact h | exact hP.addTrim h _ _ _ _ _

theorem Steady.streamPositionsRule (a b : Nat) : P (streamPositionsRule a b s).state := by
  unfold Machine.streamPositionsRule
  repeat' split
  all_goals try dsimp only [State.reply, State.replyWith, State.deferred]
  all_goals first | with_reducible exact h | exact hP.stream _ h

theorem Steady.streamArmRule (a b : Nat) : P (streamArmRule a b s).state := by
  unfold Machine.streamArmRule
  repeat' split
  all_goals try dsimp only [State.reply, State.replyWith, State.deferred]
  all_goals first | with_reducible exact h | exact hP.armed _ h

theorem Steady.streamStopRule : P (streamStopRule s).state := by
  unfold Machine.streamStopRule
  dsimp only
  split
  · exact hP.raise _ (hP.stream _ (hP.armed none h))
  · exact hP.armed none h

/-! ### Senses -/

theorem Steady.readSenseRule (n : Nat) : P (readSenseRule n s).state := by
  unfold Machine.readSenseRule
  dsimp only
  repeat' split
  all_goals try dsimp only [State.reply, State.replyWith, State.deferred]
  all_goals first | with_reducible exact h | exact hP.updSense h _ _

theorem Steady.clearChangeRule (n : Nat) : P (clearChangeRule n s).state := by
  unfold Machine.clearChangeRule
  split
  · exact h
  · exact hP.updSense h _ _

theorem Steady.setSenseWatchRule (n : Nat) (w : Byte) : P (setSenseWatchRule n w s).state := by
  unfold Machine.setSenseWatchRule
  split
  · exact hP.updSense h _ _
  · exact h

/-! ### Branches -/

theorem Steady.takeBranchRule (n : Nat) : P (takeBranchRule n s).state := by
  unfold Machine.takeBranchRule
  repeat' split
  all_goals try dsimp only [State.reply, State.replyWith, State.deferred]
  all_goals first | with_reducible exact h | exact hP.arbitrate (hP.updBranch h _ _) _

theorem Steady.giveBranchRule (n : Nat) : P (giveBranchRule n s).state := by
  unfold Machine.giveBranchRule
  repeat' split
  all_goals try dsimp only [State.reply, State.replyWith, State.deferred]
  all_goals first | with_reducible exact h | exact hP.causeScan (hP.arbitrate (hP.updBranch h _ _) _)

theorem Steady.directFrameRule (a b : Nat) (l : List Byte) : P (directFrameRule a b l s).state := by
  unfold Machine.directFrameRule
  repeat' split
  all_goals try dsimp only [State.reply, State.replyWith, State.deferred]
  all_goals first | with_reducible exact h | exact hP.arbitrate (hP.updBranch h _ _) _

theorem Steady.censusRule : P (censusRule s).state := by
  unfold Machine.censusRule
  repeat' split
  all_goals try dsimp only [State.reply, State.replyWith, State.deferred]
  all_goals first | with_reducible exact h | exact hP.runBuses (hP.beginCensus h _)

omit hP in
theorem Steady.queryBranchRule (n : Nat) : P (queryBranchRule n s).state := by
  unfold Machine.queryBranchRule
  split <;> exact h

theorem Steady.reclaimBorderRule (n : Nat) : P (reclaimBorderRule n s).state := by
  unfold Machine.reclaimBorderRule
  repeat' split
  all_goals try dsimp only [State.reply, State.replyWith, State.deferred]
  all_goals first | with_reducible exact h | exact hP.causeScan (hP.updLink (hP.updCells (fun i r hr => by simp [hr, Owner.reclaimed]) h) _ _)

omit hP in
theorem Steady.queryLinkRule (n : Nat) : P (queryLinkRule n s).state := by
  unfold Machine.queryLinkRule
  split <;> exact h

omit hP in
theorem Steady.queryCellRule (n : Nat) : P (queryCellRule n s).state := by
  unfold Machine.queryCellRule
  split <;> exact h

omit hP in
theorem Steady.queryNoticesRule (p : PortId) : P (queryNoticesRule p s).state := by
  unfold Machine.queryNoticesRule
  dsimp only
  split <;> exact h

/-! ### Branch lines -/

theorem Steady.takeSenses (n : SlotId) (x : Senses) : P (s.takeSenses n x) := by
  unfold State.takeSenses
  dsimp only
  split
  · exact hP.raise _ (hP.updSense h _ _)
  · exact hP.updSense h _ _

theorem Steady.freeBus (b : BranchId) : P (s.freeBus b) := hP.updBranch h _ _

theorem Steady.takeNak (b : BranchId) (o : Order) (l : Nat) : P (s.takeNak b o l) := by
  unfold State.takeNak
  have h' := hP.freeBus h b
  dsimp only
  repeat' split
  · exact hP.complete h' _ _ _ _ _ _ _ _
  · exact hP.complete h' _ _ _ _ _ _ _ _
  · exact hP.updBranch h' _ _

theorem Steady.onOrder (b : BranchId) (d : DropId) (f : State → Order → Nat → State)
    (hf : ∀ {s} o l, P s → P (f s o l)) : P (s.onOrder b d f) := by
  unfold State.onOrder
  split
  · split
    · exact hP.busEvent h _ fun h => hf _ _ h
    · exact h
  · exact h

theorem Steady.readStatus (b : BranchId) (d : DropId) (x : Bool) (r : StatusReply) : P (s.readStatus b d x r) := by
  unfold State.readStatus
  repeat' split
  all_goals first | with_reducible exact h | exact hP.complete h _ _ _ _ _ _ _ _

theorem Steady.takeStatus (b : BranchId) (d : DropId) (w : Purpose) (r : StatusReply) : P (s.takeStatus b d w r) := by
  unfold State.takeStatus
  have h' := hP.takeSenses (hP.freeBus h b) (slotOf b d) r.senses
  dsimp only
  split
  · exact h'
  · exact hP.readStatus h' _ _ _ _
  · exact hP.readStatus h' _ _ _ _

theorem Steady.found (n : SlotId) : P (s.found n) := by
  unfold State.found
  split
  · exact hP.judge (hP.anySlot n (by constructor <;> intro _ <;> rfl) (hP.castShadow h n)) n
  · exact h

theorem Steady.notFound (n : SlotId) : P (s.notFound n) := by
  unfold State.notFound
  split
  · exact hP.silent h n
  · exact h

theorem Steady.noReply (b : BranchId) (e : Entry) (l : List Byte) : P (s.noReply b e l) := by
  unfold State.noReply
  have h' := hP.freeBus h b
  dsimp only
  repeat' split
  all_goals first
    | exact h'
    | exact hP.complete h' _ _ _ _ _ _ _ _
    | exact hP.silent h' _
    | exact hP.updBranch (hP.notFound h' _) _ _
    | exact hP.answerService h' _ _

theorem Steady.windowEnd (b : BranchId) (l : List Byte) : P (s.windowEnd b l) := by
  unfold State.windowEnd
  split
  · exact h
  · exact hP.freeBus h b
  · exact hP.noReply h b _ _
  · exact hP.updBranch h _ _

/-! ### Border links -/

theorem Steady.endClaim (k : LinkId) (c : Claim) (e : ClaimEnd) : P (s.endClaim k c e) := hP.updLink h _ _

theorem Steady.backOff (c : Claim) : P (s.backOff c) := by
  unfold State.backOff
  split
  · exact h
  · exact hP.updEntry (hP.freePending h _) _
      (f := fun e => { e with pendingClaim := false, backoff := some (s.now + backoffTime) }) ⟨fun _ => rfl, fun _ h => h⟩

theorem Steady.timeOutClaim (k : LinkId) : P (s.timeOutClaim k) := by
  unfold State.timeOutClaim
  split
  · exact hP.causeScan (hP.backOff (hP.endClaim (hP.sendRelease h k _) k _ _) _)
  · exact h

theorem Steady.enterLink (k : LinkId) (st : LinkState) : P (s.enterLink k st) := hP.raise _ (hP.updLink h _ _)

theorem Steady.countTimeout (k : LinkId) : P (s.countTimeout k) := by
  unfold State.countTimeout
  split
  · exact h
  · have h' := hP.updLink h k fun l => { l with timeouts := l.timeouts + 1 }
    dsimp only
    split
    · exact hP.timeOutClaim (hP.enterLink h' k _) k
    · exact h'

theorem Steady.greet (k : LinkId) (x : SectorId) : P (s.greet k x) := by
  unfold State.greet
  have h' := hP.updLink h k fun l => { l with neighbour := some x, timeouts := 0 }
  dsimp only
  split
  · exact hP.enterLink h' k _
  · exact h'

theorem Steady.borderEvent (k : LinkId) (x : SectorId) (b : Bool) (f : State → State) (hf : ∀ {s}, P s → P (f s)) :
    P (s.borderEvent k x b f) := by
  unfold State.borderEvent
  split
  · exact h
  · exact hP.busEvent h _ fun h => hf (hP.greet h k x)

omit hP h in
theorem State.lendable_not_fixed {k : LinkId} {l : List Nat} (hl : l.all (s.lendable k) = true) :
    ∀ c ∈ s.cellsOn k l, (s.cell c).owner ≠ .fixed := by
  intro c hc e
  obtain ⟨i, hi, hk⟩ := List.mem_filterMap.1 hc
  have := List.all_eq_true.1 hl i hi
  simp [State.lendable, hk, e] at this

theorem Steady.takeClaim (k : LinkId) (n : Byte) (l : List Nat) : P (s.takeClaim k n l) := by
  unfold State.takeClaim
  repeat' split
  · exact hP.send h k _
  · rename_i hl
    exact hP.send (hP.lend k _ (State.lendable_not_fixed hl) h) k _
  · exact hP.send h k _
  · exact hP.send h k _

omit hP h in
theorem State.claim_not_fixed {k : LinkId} {c : Claim} {p : Bool} {l : List CellId}
    (hm : (p && l.all (s.claimPasses k c)) = true) : ∀ x ∈ l, (s.cell x).owner ≠ .fixed := by
  intro x hx e
  simp only [Bool.and_eq_true, List.all_eq_true] at hm
  have := hm.2 x hx
  simp [State.claimPasses, e] at this

theorem Steady.takeGrant (k : LinkId) (c : Claim) : P (s.takeGrant k c) := by
  unfold State.takeGrant
  have h' := hP.causeScan (hP.backOff (hP.endClaim (hP.sendRelease h k (s.stillAway k c.cells)) k c .released) c)
  dsimp only
  repeat' split
  all_goals first | exact h' | exact hP.causeScan (hP.grantSeg (hP.endClaim h k c _) _ _ _ (State.claim_not_fixed (by assumption)))

theorem Steady.takeRelease (k : LinkId) (l : List Nat) : P (s.takeRelease k l) := by
  unfold State.takeRelease
  dsimp only
  have h' (p : QEntry → Bool) (g : Nat → Cell → Cell) (hg : CellOk g) :
      P { s.updCells g with queue := (s.updCells g).queue.map fun e => if p e then { e with backoff := none } else e } :=
    hP.queue _ (Shrinks.map _ (EntryOk.ite (f := fun e => { e with backoff := none }) ⟨fun _ => rfl, fun _ h => h⟩ _))
      (hP.updCells hg h)
  split
  · exact hP.causeScan (h' _ _ fun i r hr => by simp [hr])
  · exact h' _ _ fun i r hr => by simp [hr]

theorem Steady.report (k : LinkId) : P (s.report k) := hP.send (hP.updCells (fun i r hr => by simp [hr]) h) k _

theorem Steady.takeReport (k : LinkId) (a b : List Nat) : P (s.takeReport k a b) := by
  unfold State.takeReport
  have h' := hP.updLink h k fun l => { l with syncOwed := false, syncTimer := none }
  dsimp only
  refine hP.sendRelease (hP.updCells (fun i r hr => by simp [hr]) (hP.updCells (fun i r hr => by simp [hr]) ?_)) k _
  split
  · exact h'
  · exact hP.enterLink h' k _

theorem Steady.beginHalt : P s.beginHalt := by
  unfold State.beginHalt
  exact hP.finish (foldl_keeps (P := P) (fun t b h => hP.requestHalt h b) (hP.phase .halt h)) s

omit hP h in
/-- The state a command leads to keeps a `Steady` property, for every command that writes no setting. -/
theorem Steady.exec (hP : Steady P) (c : Instr) (hc : writesSetting c = false) (h : P s) : ∃ t, exec c s = .next t ∧ P t := by
  cases c with
  | openBatch p seq id =>
    exact ⟨_, rfl, hP.request h _ _ _ _ fun h => hP.openBatchRule h _⟩
  | loadSegment p seq d =>
    exact ⟨_, rfl, hP.request h _ _ _ _ fun h => hP.loadSegmentRule h _⟩
  | commitBatch p seq id =>
    exact ⟨_, rfl, hP.request h _ _ _ _ fun h => hP.commitBatchRule h _⟩
  | cancelOpen p seq =>
    exact ⟨_, rfl, hP.request h _ _ _ _ fun h => hP.cancelOpenRule h⟩
  | abortBatch p seq id =>
    exact ⟨_, rfl, hP.request h _ _ _ _ fun h => hP.abortBatchRule h _⟩
  | ackLoadError p seq =>
    exact ⟨_, rfl, hP.request h _ _ _ _ fun h => hP.loadError _ h⟩
  | queryBatch p seq id =>
    exact ⟨_, rfl, hP.request h _ _ _ _ fun h => Steady.queryBatchRule h _⟩
  | hold p seq =>
    exact ⟨_, rfl, hP.request h _ _ _ _ fun h => hP.holdRule h⟩
  | resume p seq =>
    exact ⟨_, rfl, hP.request h _ _ _ _ fun h => hP.resumeRule h⟩
  | stop p seq =>
    exact ⟨_, rfl, hP.request h _ _ _ _ fun h => hP.stopRule h⟩
  | queryQueue p seq =>
    exact ⟨_, rfl, hP.request h _ _ _ _ fun h => h⟩
  | querySlot p seq slot =>
    exact ⟨_, rfl, hP.request h _ _ _ _ fun h => Steady.querySlotRule h _⟩
  | clearFault p seq slot =>
    exact ⟨_, rfl, hP.request h _ _ _ _ fun h => hP.clearFaultRule h _⟩
  | retire p seq slot =>
    exact ⟨_, rfl, hP.request h _ _ _ _ fun h => hP.retireRule h _⟩
  | unretire p seq slot =>
    exact ⟨_, rfl, hP.request h _ _ _ _ fun h => hP.unretireRule h _⟩
  | storeRetired p seq =>
    simp [writesSetting] at hc
  | measure p seq slot theta phi cells =>
    exact ⟨_, rfl, hP.request h _ _ _ _ fun h => hP.measureRule h _ _ _ _⟩
  | setFootprint p seq slot cells =>
    exact ⟨_, rfl, hP.request h _ _ _ _ fun h => hP.setFootprintRule h _ _⟩
  | loadTrim p seq d =>
    exact ⟨_, rfl, hP.request h _ _ _ _ fun h => hP.loadTrimRule h _⟩
  | streamPositions p seq first count =>
    exact ⟨_, rfl, hP.request h _ _ _ _ fun h => hP.streamPositionsRule h _ _⟩
  | streamArm p seq first count =>
    exact ⟨_, rfl, hP.request h _ _ _ _ fun h => hP.streamArmRule h _ _⟩
  | streamStop p seq =>
    exact ⟨_, rfl, hP.request h _ _ _ _ fun h => hP.streamStopRule h⟩
  | readSense p seq slot =>
    exact ⟨_, rfl, hP.request h _ _ _ _ fun h => hP.readSenseRule h _⟩
  | clearChange p seq slot =>
    exact ⟨_, rfl, hP.request h _ _ _ _ fun h => hP.clearChangeRule h _⟩
  | setSenseWatch p seq slot watch =>
    exact ⟨_, rfl, hP.request h _ _ _ _ fun h => hP.setSenseWatchRule h _ _⟩
  | queryCell p seq cell =>
    exact ⟨_, rfl, hP.request h _ _ _ _ fun h => Steady.queryCellRule h _⟩
  | takeBranch p seq branch =>
    exact ⟨_, rfl, hP.request h _ _ _ _ fun h => hP.takeBranchRule h _⟩
  | giveBranch p seq branch =>
    exact ⟨_, rfl, hP.request h _ _ _ _ fun h => hP.giveBranchRule h _⟩
  | directFrame p seq branch drop bytes =>
    exact ⟨_, rfl, hP.request h _ _ _ _ fun h => hP.directFrameRule h _ _ _⟩
  | census p seq =>
    exact ⟨_, rfl, hP.request h _ _ _ _ fun h => hP.censusRule h⟩
  | queryBranch p seq branch =>
    exact ⟨_, rfl, hP.request h _ _ _ _ fun h => Steady.queryBranchRule h _⟩
  | reclaimBorder p seq link =>
    exact ⟨_, rfl, hP.request h _ _ _ _ fun h => hP.reclaimBorderRule h _⟩
  | queryLink p seq link =>
    exact ⟨_, rfl, hP.request h _ _ _ _ fun h => Steady.queryLinkRule h _⟩
  | setTimebase p seq us =>
    simp [writesSetting] at hc
  | writeStoreSectorId p seq id =>
    simp [writesSetting] at hc
  | writeStoreFixedList p seq cells =>
    simp [writesSetting] at hc
  | writeStorePatrolSet p seq slot cells =>
    simp [writesSetting] at hc
  | writeStoreBorderEntry p seq place entry =>
    simp [writesSetting] at hc
  | writeStoreRetiredEntry p seq slot entry =>
    simp [writesSetting] at hc
  | writeStoreClear p seq =>
    simp [writesSetting] at hc
  | resetSector p seq =>
    exact ⟨_, rfl, hP.request h _ _ _ _ fun h => h⟩
  | subscribe p seq kinds =>
    exact ⟨_, rfl, hP.request h _ _ _ _ fun h => hP.subscribe _ _ h⟩
  | queryNotices p seq =>
    exact ⟨_, rfl, hP.request h _ _ _ _ fun h => Steady.queryNoticesRule h _⟩
  | badRequestFrame p bad =>
    cases bad
    · exact ⟨_, rfl, h⟩
    · exact ⟨_, rfl, hP.badForm h _ _ _⟩
    · exact ⟨_, rfl, hP.request h _ _ _ _ fun h => h⟩
  | portFrameSent p =>
    simp [writesSetting] at hc
  | scan =>
    show ∃ t, execScan s = .next t ∧ P t
    unfold execScan
    split
    · exact ⟨_, rfl, hP.busEvent h _ fun h => hP.makeScan h⟩
    · exact ⟨_, rfl, h⟩
  | ack b d =>
    exact ⟨_, rfl, hP.onOrder h _ _ _ fun _ _ h => hP.updBranch h _ _⟩
  | nakBusy b d =>
    exact ⟨_, rfl, hP.onOrder h _ _ _ fun _ _ h => hP.takeNak h _ _ _⟩
  | status b d r =>
    show ∃ t, execStatus b d r s = .next t ∧ P t
    unfold execStatus
    repeat' split
    all_goals first | exact ⟨_, rfl, h⟩ | exact ⟨_, rfl, hP.busEvent h _ fun h => hP.takeStatus h _ _ _ _⟩
  | roll b d =>
    show ∃ t, execRoll b d s = .next t ∧ P t
    unfold execRoll
    repeat' split
    all_goals first | exact ⟨_, rfl, h⟩ | exact ⟨_, rfl, hP.busEvent h _ fun h => hP.updBranch (hP.found (hP.freeBus h _) _) _ _⟩
  | branchFrameDiscarded b =>
    exact ⟨_, rfl, h⟩
  | replyWindowEnd b received =>
    show ∃ t, execReplyWindowEnd b received s = .next t ∧ P t
    unfold execReplyWindowEnd
    repeat' split
    all_goals first | exact ⟨_, rfl, h⟩ | exact ⟨_, rfl, hP.busEvent h _ fun h => hP.windowEnd (hP.clockTo h _) _ _⟩
  | settleEnd b d =>
    show ∃ t, execSettleEnd b d s = .next t ∧ P t
    unfold execSettleEnd
    dsimp only
    repeat' split
    all_goals first | exact ⟨_, rfl, h⟩ | exact ⟨_, rfl, hP.timerEvent h _ _ _ fun h => hP.updBranch h _ _⟩
  | nakBusyWaitEnd b d =>
    show ∃ t, execNakBusyWaitEnd b d s = .next t ∧ P t
    unfold execNakBusyWaitEnd
    repeat' split
    all_goals first | exact ⟨_, rfl, h⟩ | exact ⟨_, rfl, hP.timerEvent h _ _ _ fun h => hP.updBranch h _ _⟩
  | statusCallDue b d =>
    show ∃ t, execStatusCallDue b d s = .next t ∧ P t
    unfold execStatusCallDue
    repeat' split
    all_goals first | exact ⟨_, rfl, h⟩ | exact ⟨_, rfl, hP.timerEvent h _ _ _ fun h => hP.updBranch h _ _⟩
  | stallLimit b d =>
    show ∃ t, execStallLimit b d s = .next t ∧ P t
    unfold execStallLimit
    repeat' split
    all_goals first | exact ⟨_, rfl, h⟩ | exact ⟨_, rfl, hP.timerEvent h _ _ _ fun h => hP.updBranch h _ _⟩
  | idleCallDue b d =>
    show ∃ t, execIdleCallDue b d s = .next t ∧ P t
    unfold execIdleCallDue
    dsimp only
    repeat' split
    all_goals first | exact ⟨_, rfl, h⟩ | exact ⟨_, rfl, hP.timerEvent h _ _ _ fun h => hP.updBranch h _ _⟩
  | dwellTimerEnd n =>
    show ∃ t, execDwellTimerEnd n s = .next t ∧ P t
    unfold execDwellTimerEnd
    repeat' split
    all_goals first | exact ⟨_, rfl, h⟩ | exact ⟨_, rfl, hP.busEvent h _ fun h => hP.endBatches (hP.judge (hP.endDwell (hP.clockTo h _) _) _)⟩
  | backoffEnd n =>
    show ∃ t, execBackoffEnd n s = .next t ∧ P t
    unfold execBackoffEnd
    repeat' split
    all_goals first | exact ⟨_, rfl, h⟩ | exact ⟨_, rfl, hP.event h _ fun h => hP.causeScan (hP.updEntry (hP.clockTo h _) _ ⟨fun _ => rfl, fun _ h => h⟩)⟩
  | claimAnswerTimeout k =>
    show ∃ t, execClaimAnswerTimeout k s = .next t ∧ P t
    unfold execClaimAnswerTimeout
    repeat' split
    all_goals first | exact ⟨_, rfl, h⟩ | exact ⟨_, rfl, hP.busEvent h _ fun h => hP.countTimeout (hP.timeOutClaim (hP.clockTo h _) _) _⟩
  | syncTimeout k =>
    show ∃ t, execSyncTimeout k s = .next t ∧ P t
    unfold execSyncTimeout
    repeat' split
    all_goals first | exact ⟨_, rfl, h⟩ | exact ⟨_, rfl, hP.busEvent h _ fun h => hP.sendSync (hP.countTimeout (hP.clockTo h _) _) _⟩
  | claim k sender number cells =>
    show ∃ t, execClaim k sender number cells s = .next t ∧ P t
    unfold execClaim
    repeat' split
    all_goals first | exact ⟨_, rfl, h⟩ | exact ⟨_, rfl, hP.borderEvent h _ _ _ _ fun h => hP.takeClaim h _ _ _⟩
  | grant k sender number =>
    refine ⟨_, rfl, hP.borderEvent h _ _ _ _ fun h => ?_⟩
    split
    · split
      · exact hP.takeGrant h _ _
      · exact hP.sendRelease h _ _
    · exact hP.sendRelease h _ _
  | refuse k sender number reason =>
    refine ⟨_, rfl, hP.borderEvent h _ _ _ _ fun h => ?_⟩
    split
    · split
      · exact hP.causeScan (hP.backOff (hP.endClaim h _ _ _) _)
      · exact h
    · exact h
  | release k sender cells =>
    show ∃ t, execRelease k sender cells s = .next t ∧ P t
    unfold execRelease
    repeat' split
    all_goals first | exact ⟨_, rfl, h⟩ | exact ⟨_, rfl, hP.borderEvent h _ _ _ _ fun h => hP.takeRelease h _ _⟩
  | sync k sender =>
    exact ⟨_, rfl, hP.borderEvent h _ _ _ _ fun h => hP.timeOutClaim (hP.report h _) _⟩
  | syncReport k sender lent borrowed =>
    show ∃ t, execSyncReport k sender lent borrowed s = .next t ∧ P t
    unfold execSyncReport
    repeat' split
    all_goals first | exact ⟨_, rfl, h⟩ | exact ⟨_, rfl, hP.borderEvent h _ _ _ _ fun h => hP.takeReport h _ _ _⟩
  | borderFrameDiscarded k =>
    exact ⟨_, rfl, h⟩
  | stopLineAssert =>
    simp [writesSetting] at hc
  | stopLineRelease =>
    simp [writesSetting] at hc
  | powerOn straps =>
    simp [writesSetting] at hc
  | resetLineAssert =>
    simp [writesSetting] at hc
  | resetLineRelease straps =>
    simp [writesSetting] at hc
  | loadPhaseEnd =>
    show ∃ t, execLoadPhaseEnd s = .next t ∧ P t
    unfold execLoadPhaseEnd
    repeat' split
    all_goals first | exact ⟨_, rfl, h⟩ | exact ⟨_, rfl, hP.event h _ fun h => hP.beginHalt h⟩

end Sys2Proof.Machine
end

