-- ==== Sys2Proof/Laws/Requests.lean ====
section
/-! SUPPORT. The send sides: a frame that begins, and a notice that is raised, change no answer made, no request in hand and nothing
apart from ports and stream; a request whose rule answers at once makes exactly that answer. -/

namespace Sys2Proof.Machine

variable {s : State}

@[simp] theorem State.apart_updPort (p : PortId) (f : Port → Port) : (s.updPort p f).apart = s.apart := rfl
@[simp] theorem State.apart_raise (nt : Notice) : (s.raise nt).apart = s.apart := rfl
@[simp] theorem State.apart_answer (p : PortId) (r : Result) (f : AnswerFields) : (s.answer p r f).apart = s.apart := rfl
@[simp] theorem State.apart_takeInHand (p : PortId) (c q : Nat) : (s.takeInHand p c q).apart = s.apart := rfl
@[simp] theorem State.apart_refuseBusy (p : PortId) (c q : Nat) : (s.refuseBusy p c q).apart = s.apart := rfl

/-- The answers of one port's send side. -/
def Port.lined (q : Port) : List Answer :=
  (match q.sending with
    | some f => f.answers
    | none => []) ++ q.answers

theorem State.lined_eq (p : PortId) : s.lined p = (s.port p).lined := rfl

/-! ### What a port keeps -/

/-- Port `a` became `b`: its answers, its request in hand, its role and its subscriptions kept, no notice lost. -/
structure Port.Carries (a b : Port) : Prop where
  answers : b.lined = a.lined
  busy : b.busy = a.busy
  inHand : b.inHand = a.inHand
  role : b.role = a.role
  subs : b.subs = a.subs
  told : a.told <+: b.told

theorem Port.Carries.refl (a : Port) : a.Carries a := ⟨rfl, rfl, rfl, rfl, rfl, List.prefix_refl _⟩
theorem Port.Carries.trans {a b c : Port} (h : a.Carries b) (k : b.Carries c) : a.Carries c :=
  ⟨k.answers.trans h.answers, k.busy.trans h.busy, k.inHand.trans h.inHand, k.role.trans h.role, k.subs.trans h.subs,
    h.told.trans k.told⟩

theorem State.samePort_iff {t : State} {q : PortId} : s.SamePort t q ↔ (s.port q).Carries (t.port q) :=
  ⟨fun h => ⟨h.answers, h.busy, h.inHand, h.role, h.subs, h.told⟩,
    fun h => ⟨h.answers, h.busy, h.inHand, h.role, h.subs, h.told⟩⟩

/-- A raised notice (R177). -/
theorem Port.carries_offer (q : Port) (nt : Notice) : q.Carries (q.offer nt) := by
  unfold Port.offer
  split
  · split
    · exact Port.Carries.refl _
    · split
      · exact ⟨rfl, rfl, rfl, rfl, rfl, by simp only [Port.told]; rw [← List.append_assoc]; exact List.prefix_append _ _⟩
      · exact ⟨rfl, rfl, rfl, rfl, rfl, List.prefix_refl _⟩
  · exact Port.Carries.refl _

/-- A notice that begins to be sent on a free line (R173, R178). -/
theorem Port.carries_beginNotice (q : Port) (hs : q.sending = none) : q.Carries q.beginNotice := by
  unfold Port.beginNotice
  split
  · rename_i nt l hn
    dsimp only
    split
    · refine ⟨?_, rfl, rfl, rfl, rfl, ?_⟩
      · simp [Port.lined, Port.summarize, hs, PortFrame.answers]
      · simp only [Port.told, Port.summarize, hs, hn, List.nil_append]
        rw [← List.append_assoc]
        exact List.prefix_append _ _
    · refine ⟨?_, rfl, rfl, rfl, rfl, ?_⟩
      · simp [Port.lined, hs, PortFrame.answers]
      · simp [Port.told, hs, hn]
  · exact Port.Carries.refl _

theorem Port.carries_send (q : Port) (f : PortFrame) (x : SentKind) (hs : q.sending = none) (hf : f.answers = [])
    (hn : ∀ nt, f ≠ .notice nt) : q.Carries { q with sending := some f, lastKind := x } := by
  refine ⟨by simp [Port.lined, hs, hf], rfl, rfl, rfl, rfl, ?_⟩
  cases f with
  | answer a => simp [PortFrame.answers] at hf
  | notice nt => exact absurd rfl (hn nt)
  | record r => simp [Port.told, hs]

theorem State.carries_updPort (p m : PortId) (f : Port → Port) (h : (s.port p).Carries (f (s.port p))) :
    (s.port m).Carries ((s.updPort p f).port m) := by
  by_cases e : p = m
  · subst e; rw [State.port_updPort_self]; exact h
  · rw [State.port_updPort_ne _ _ e]; exact Port.Carries.refl _

theorem State.carries_raise (nt : Notice) (m : PortId) : (s.port m).Carries ((s.raise nt).port m) := by
  rw [State.port_raise]; exact Port.carries_offer _ _

theorem State.carries_beginRecord (p m : PortId) (r : PosRecord) (hs : (s.port p).sending = none) :
    (s.port m).Carries ((s.beginRecord p r).port m) := by
  have h1 : (s.port m).Carries
      ((s.updPort p fun q => { q with sending := some (.record r), lastKind := .record }).port m) :=
    State.carries_updPort p m _ (Port.carries_send _ _ _ hs rfl (by simp))
  unfold State.beginRecord
  dsimp only
  split
  · exact h1
  · split
    · exact h1.trans (State.carries_raise _ _)
    · exact h1

/-- A frame that begins changes no answer made and no request in hand, and loses no notice (R173). -/
theorem State.carries_beginFrame (p m : PortId) : (s.port m).Carries ((s.beginFrame p).port m) := by
  unfold State.beginFrame
  dsimp only
  split
  · exact Port.Carries.refl _
  · rename_i hq
    have hs : (s.port p).sending = none := by
      simp only [Bool.or_eq_true, not_or, Bool.not_eq_true, Option.isSome_eq_false_iff, Option.isNone_iff_eq_none] at hq
      exact hq.2
    split
    · rename_i ha
      refine State.carries_updPort p m _ ⟨?_, rfl, rfl, rfl, rfl, ?_⟩
      · simp [Port.lined, hs, ha, PortFrame.answers]
      · simp [Port.told, hs]
    · exact Port.Carries.refl _
    · exact State.carries_beginRecord p m _ hs
    · exact State.carries_updPort p m _ (Port.carries_beginNotice _ hs)
    · split
      · exact State.carries_beginRecord p m _ hs
      · exact State.carries_updPort p m _ (Port.carries_beginNotice _ hs)

theorem State.beginFrame_apart (p : PortId) : (s.beginFrame p).apart = s.apart := by
  unfold State.beginFrame
  dsimp only
  split
  · rfl
  · have hr : ∀ r, (s.beginRecord p r).apart = s.apart := by
      intro r
      unfold State.beginRecord
      dsimp only
      split
      · rfl
      · split <;> rfl
    split
    · rfl
    · rfl
    · exact hr _
    · rfl
    · split
      · exact hr _
      · rfl

theorem foldl_beginFrame_carries (l : List PortId) (m : PortId) :
    (s.port m).Carries ((l.foldl State.beginFrame s).port m) := by
  induction l generalizing s with
  | nil => exact Port.Carries.refl _
  | cons a l ih => exact (State.carries_beginFrame a m).trans (ih (s := s.beginFrame a))

theorem foldl_beginFrame_apart (l : List PortId) : (l.foldl State.beginFrame s).apart = s.apart := by
  induction l generalizing s with
  | nil => rfl
  | cons a l ih => exact (ih (s := s.beginFrame a)).trans (State.beginFrame_apart a)

theorem State.carries_kickPorts (m : PortId) : (s.port m).Carries (s.kickPorts.port m) := foldl_beginFrame_carries _ m
@[simp] theorem State.kickPorts_apart : s.kickPorts.apart = s.apart := foldl_beginFrame_apart _

@[simp] theorem State.kickPorts_lined (m : PortId) : s.kickPorts.lined m = s.lined m := (State.carries_kickPorts m).answers
@[simp] theorem State.kickPorts_busy (m : PortId) : (s.kickPorts.port m).busy = (s.port m).busy :=
  (State.carries_kickPorts m).busy
@[simp] theorem State.kickPorts_inHand (m : PortId) : (s.kickPorts.port m).inHand = (s.port m).inHand :=
  (State.carries_kickPorts m).inHand

/-! ### Answers -/

/-- An answer is made behind those made before (R173). -/
theorem State.lined_answer (p : PortId) (r : Result) (f : AnswerFields) {i : InHand} (hi : (s.port p).inHand = some i) :
    (s.answer p r f).lined p = s.lined p ++ [{ own := true, code := i.code, seq := i.seq, result := r, fields := f }] := by
  simp [State.lined_eq, State.answer, hi, Port.lined]

@[simp] theorem State.busy_answer (p m : PortId) (r : Result) (f : AnswerFields) :
    ((s.answer p r f).port m).busy = (s.port m).busy := by
  by_cases e : p = m
  · subst e
    simp only [State.answer, State.port_updPort_self]
    split <;> rfl
  · simp [State.answer, e]

@[simp] theorem State.role_answer (p m : PortId) (r : Result) (f : AnswerFields) :
    ((s.answer p r f).port m).role = (s.port m).role := by
  by_cases e : p = m
  · subst e
    simp only [State.answer, State.port_updPort_self]
    split <;> rfl
  · simp [State.answer, e]

@[simp] theorem State.subs_answer (p m : PortId) (r : Result) (f : AnswerFields) :
    ((s.answer p r f).port m).subs = (s.port m).subs := by
  by_cases e : p = m
  · subst e
    simp only [State.answer, State.port_updPort_self]
    split <;> rfl
  · simp [State.answer, e]

@[simp] theorem State.told_answer (p m : PortId) (r : Result) (f : AnswerFields) :
    ((s.answer p r f).port m).told = (s.port m).told := by
  by_cases e : p = m
  · subst e
    simp only [State.answer, State.port_updPort_self]
    split <;> rfl
  · simp [State.answer, e]

theorem State.port_answer_ne {p m : PortId} (r : Result) (f : AnswerFields) (h : p ≠ m) :
    (s.answer p r f).port m = s.port m := by simp [State.answer, h]

/-! ### Requests -/

/-- A ready port whose request reaches its owning rule. -/
theorem State.request_takes {p : PortId} {r : Role} {c : ReqCode} (hT : s.Takes p r c) (seq : Nat) (rule : State → Reply) :
    s.request p c seq rule = ((rule (s.takeInHand p c.number seq)).make p).kickPorts := by
  have hj : (s.takeInHand p c.number seq).judgeRequest r c rule = rule (s.takeInHand p c.number seq) := by
    unfold State.judgeRequest
    rw [if_neg (by simp [hT.allowed])]
    refine if_neg ?_
    rintro ⟨h1, h2, h3⟩
    have hs : s.sector = .unconfigured := h1
    rcases hT.configured hs with h | h
    · exact h2 h
    · rw [h] at h3; cases h3
  unfold State.request
  rw [if_neg (by simp [hT.released]), hT.role]
  simp [hT.free, hj]

/-- An answer made to the request in hand, and the end of the event. -/
theorem State.make_completes {p : PortId} (c : ReqCode) (seq : Nat) {u : State} {res : Result} {f : AnswerFields}
    (hv : ∀ q, ((s.takeInHand p c.number seq).port q).Carries (u.port q)) :
    s.Completes (({ state := u, answer := some (res, f) } : Reply).make p).kickPorts p (c.answer seq res f) u := by
  have h := hv p
  have hp : (s.takeInHand p c.number seq).port p =
      { s.port p with busy := true, inHand := some { code := c.number, seq := seq } } := by simp [State.takeInHand]
  have hi : (u.port p).inHand = some { code := c.number, seq := seq } := by rw [h.inHand, hp]
  have hk := State.carries_kickPorts (s := u.answer p res f) p
  refine ⟨⟨?_, ?_⟩, ?_, ?_, ?_, ?_, fun q hq => State.samePort_iff.2 ?_⟩
  · have : u.lined p = s.lined p := by rw [State.lined_eq, h.answers, hp]; rfl
    simp only [Reply.make, State.kickPorts_lined, State.lined_answer _ _ _ hi, this, ReqCode.answer]
  · simp only [Reply.make, State.kickPorts_busy, State.busy_answer, h.busy, hp]
  · simp only [Reply.make, State.kickPorts_apart, State.apart_answer]
  · exact hk.role.trans (by rw [State.role_answer, h.role, hp])
  · exact hk.subs.trans (by rw [State.subs_answer, h.subs, hp])
  · have e : (s.port p).told = ((s.takeInHand p c.number seq).port p).told := by rw [hp]; rfl
    rw [e]
    refine h.told.trans ?_
    rw [← State.told_answer (s := u) p p res f]
    exact hk.told
  · have e : (s.takeInHand p c.number seq).port q = s.port q := by simp [State.takeInHand, Ne.symm hq]
    have h' := hv q
    rw [e] at h'
    refine h'.trans ?_
    rw [← State.port_answer_ne (s := u) res f (Ne.symm hq)]
    exact State.carries_kickPorts q

/-- The owning rule answers at once, leaving the ports but for notices raised (R169, R171). -/
theorem State.request_completes {p : PortId} {r : Role} {c : ReqCode} (hT : s.Takes p r c) (seq : Nat) (rule : State → Reply)
    {u : State} {res : Result} {f : AnswerFields}
    (hr : rule (s.takeInHand p c.number seq) = { state := u, answer := some (res, f) })
    (hv : ∀ q, ((s.takeInHand p c.number seq).port q).Carries (u.port q)) :
    s.Completes (s.request p c seq rule) p (c.answer seq res f) u := by
  rw [State.request_takes hT, hr]
  exact State.make_completes c seq hv

/-- The state that a request is said to leave may be given by any that agrees with it apart from ports and stream. -/
theorem State.Completes.congr {t u v : State} {p : PortId} {a : Answer} (h : s.Completes t p a u) (e : u.apart = v.apart) :
    s.Completes t p a v := { h with apart := h.apart.trans e }

end Sys2Proof.Machine
end

