-- ==== Sys2Proof/Tests/Slice0.lean ====
section
/-! SUPPORT. Tests: ill-formed terms that the check refuses, frames written out from the spec's layouts, one step of a command on a
small state, and for every statement with hypotheses a state and operands that meet them. -/

namespace Sys2Proof.Tests

open Sys2Proof.Machine

set_option Elab.async false

/-! ### Helpers -/

/-- The outcome is a next state that passes `p`. -/
def runs (i : Instr) (s : State) (p : State → Bool) : Bool :=
  match exec i s with
  | .next t => p t
  | _ => false

/-- `State.Ready`, by computation. -/
def readyB (s : State) (p : PortId) (r : Role) : Bool :=
  !s.resetHeld && decide ((s.port p).role = some r) && !(s.port p).busy

/-- `State.Takes`, by computation. -/
def takesB (s : State) (p : PortId) (r : Role) (c : ReqCode) : Bool :=
  readyB s p r && c.allowed r && (decide (s.sector ≠ .unconfigured) || decide (r = .service) || c.passesUnconfigured)

theorem ready_of {s : State} {p : PortId} {r : Role} (h : readyB s p r = true) : s.Ready p r := by
  simp only [readyB, Bool.and_eq_true, decide_eq_true_eq, Bool.not_eq_true'] at h
  exact ⟨h.1.1, h.1.2, h.2⟩

theorem takes_of {s : State} {p : PortId} {r : Role} {c : ReqCode} (h : takesB s p r c = true) : s.Takes p r c := by
  simp only [takesB, Bool.and_eq_true, Bool.or_eq_true, decide_eq_true_eq] at h
  refine ⟨ready_of h.1.1, h.1.2, fun hs => ?_⟩
  rcases h.2 with (h | h) | h
  · exact absurd hs h
  · exact .inl h
  · exact .inr h

/-- `State.RolesDistinct`, by computation. -/
def distinctB (s : State) : Bool :=
  allPorts.all fun p => allPorts.all fun q =>
    decide (p = q) || (s.port p).role.isNone || decide ((s.port p).role ≠ (s.port q).role)

theorem distinct_of {s : State} (h : distinctB s = true) : s.RolesDistinct := by
  intro p q r hp hq
  simp only [distinctB, List.all_eq_true, Bool.or_eq_true, decide_eq_true_eq] at h
  rcases h p (List.mem_finRange p) q (List.mem_finRange q) with (h | h) | h
  · exact h
  · simp [hp] at h
  · exact absurd (hp.trans hq.symm) h

/-! ### Small states -/

/-- A part after start-up, in a sector state, with a timebase. -/
def up (st : SectorState) : State := { State.reset with sector := st, phase := .done, timebase := some 100 }

/-- A slot placed. -/
def put (s : State) (n : SlotId) (sl : Slot) : State := s.updSlot n fun _ => sl

/-- A populated slot with an empty chain. -/
def slotAs (st : SlotState) (stand : Stand) : Slot :=
  { populated := true, state := st, stand := stand, patrol := [10, 11, 12, 13], fault := none, chain := [] }

/-- A robot at 5, 6 in cell 10. -/
def home : Stand := .footprint 5 6 [10]

/-- A slot with a chain. -/
def chained (st : SlotState) (stand : Stand) (ids : List SegId) : Slot := { slotAs st stand with chain := ids }

/-- A segment in the pool. -/
def withSeg (s : State) (id : SegId) (g : Segment) : State := { s with pool := s.pool.set id (some g) }

/-- A MOVE of slot `n` by 2, 3 over cells 10 and 11 into 11. -/
def moveSeg (n : SlotId) (st : SegState) (batch : Option Nat) : Segment :=
  { slot := n, body := .move 2 3 1 [10, 11] [11], tag := 7, batch := batch, state := st, continuation := false }

/-- A batch record. -/
def batchAs (id : Nat) (st : BatchState) (loaded pending : Nat) (staging : List SegId) : Batch :=
  { id := id, state := st, loaded := loaded, pending := pending, done := 0, failed := 0, skipped := 0, staging := staging,
    endOrder := none }

/-- A batch at place 0. -/
def withBatch (s : State) (b : Batch) : State := { s with batches := s.batches.set 0 (some b) }

/-- A cell's owner set. -/
def own (s : State) (c : CellId) (o : Owner) : State := { s with cells := s.cells.upd c fun r => { r with owner := o } }

/-- An order of drop `d` for segment 0. -/
def orderOf (d : DropId) (wait : Option Nat) : Order :=
  { seg := 0, drop := d, period := 200, continuation := false, keep := some false, left := 2, naked := false, wait := wait }

/-- A poll-list entry of drop `d` for segment 0. -/
def pollAs (d : DropId) : PollEntry :=
  { drop := d, seg := 0, period := 200, keep := false, ackTime := 0, lastCall := 0, due := false, haltMark := false,
    finalMark := false, finalWanted := false }

/-- A branch changed. -/
def onBranch (s : State) (b : BranchId) (f : Branch → Branch) : State := s.updBranch b f

/-- A call on the bus of branch 0. -/
def calling (s : State) (c : Call) (left : Nat) : State := s.updBranch 0 fun br => { br with bus := some { call := c, left := left } }

/-- Slot 0 moving under segment 0, its order acknowledged, the sector in RUN. -/
def flying : State :=
  onBranch (withSeg (own (own (put (up .run) 0 (chained .moving home [0])) 10 (.held 0)) 11 (.held 0)) 0 (moveSeg 0 .active none)) 0
    fun br => { br with poll := [pollAs 0] }

/-- Slot 0 WAITING for segment 0 at the head of the grant queue. -/
def waiting : State :=
  { withSeg (own (put (up .run) 0 (chained .waiting home [0])) 10 (.held 0)) 0 (moveSeg 0 .chained none) with
    queue := [.fresh 0], scanDue := true }

/-- A claim of slot 0 for segment 0, out on link 2. -/
def claimAs (withdrawn : Bool) : Claim :=
  { number := 4, slot := 0, seg := 0, cells := [11], theirs := [20], withdrawn := withdrawn, deadline := 50 }

/-- Slot 0 with a claim out on link 2 for cell 11, whose home is the neighbour. -/
def claiming (withdrawn : Bool) : State :=
  State.updLink
    { own (own waiting 11 (.away 2)) 10 (.held 0) with
      border := [{ cell := 11, link := 2, theirs := 20, home := .remote }]
      queue := [{ QEntry.fresh 0 with pendingClaim := !withdrawn, claimLink := some 2 }] } 2
    fun l => { l with claim := some (claimAs withdrawn), neighbour := some 5 }

/-- A MOVE's descriptor for slot 3. -/
def descr : Descriptor :=
  { slot := 3, kind := 1, dTheta := 2, dPhi := 3, axis := 0, duration := 0, rate := 1, sweep := [10, 11], ends := [11], tag := 7 }

/-- A TRIM's descriptor for slot 3. -/
def trimDescr : Descriptor := { descr with kind := 2 }

/-! ### WellFormed: an ill-formed term for each check -/

theorem test_wellFormed_good : wellFormed (.openBatch 0 255 65535) = true ∧ wellFormed (.loadSegment 0 0 descr) = true ∧
    wellFormed (.claim 0 1 2 [3]) = true := by decide
theorem test_wellFormed_seq : wellFormed (.hold 0 256) = false := by decide
theorem test_wellFormed_byte : wellFormed (.querySlot 0 0 256) = false := by decide
theorem test_wellFormed_word : wellFormed (.openBatch 0 0 65536) = false := by decide
theorem test_wellFormed_signed : wellFormed (.loadSegment 0 0 { descr with dTheta := 32768 }) = false ∧
    wellFormed (.loadSegment 0 0 { descr with dPhi := -32769 }) = false := by decide
theorem test_wellFormed_descriptor_fields : wellFormed (.loadSegment 0 0 { descr with kind := 256 }) = false ∧
    wellFormed (.loadTrim 1 0 { descr with duration := 65536 }) = false ∧
    wellFormed (.loadTrim 1 0 { descr with axis := 256 }) = false ∧ wellFormed (.loadTrim 1 0 { descr with rate := 256 }) = false ∧
    wellFormed (.loadTrim 1 0 { descr with slot := 256 }) = false ∧
    wellFormed (.loadTrim 1 0 { descr with tag := 65536 }) = false := by decide
theorem test_wellFormed_descriptor_cells : wellFormed (.loadSegment 0 0 { descr with sweep := [65536] }) = false ∧
    wellFormed (.loadSegment 0 0 { descr with ends := [65536] }) = false := by decide
theorem test_wellFormed_descriptor_length :
    wellFormed (.loadSegment 0 0 { descr with sweep := List.replicate 247 0, ends := [0] }) = false := by decide +kernel
theorem test_wellFormed_cells : wellFormed (.setFootprint 0 0 0 [65536]) = false := by decide
theorem test_wellFormed_cell_count : wellFormed (.measure 1 0 0 0 0 (List.replicate 252 0)) = false ∧
    wellFormed (.setFootprint 1 0 0 (List.replicate 254 0)) = false ∧
    wellFormed (.writeStoreFixedList 2 0 (List.replicate 254 0)) = false ∧
    wellFormed (.writeStorePatrolSet 2 0 0 (List.replicate 253 0)) = false := by decide +kernel
theorem test_wellFormed_direct : wellFormed (.directFrame 2 0 0 0 (List.replicate 256 0)) = false := by decide +kernel
theorem test_wellFormed_border : wellFormed (.writeStoreBorderEntry 2 0 0 (some ⟨65536, 0, 0, 0⟩)) = false ∧
    wellFormed (.writeStoreBorderEntry 2 0 0 (some ⟨0, 256, 0, 0⟩)) = false ∧
    wellFormed (.writeStoreBorderEntry 2 0 0 (some ⟨0, 0, 65536, 0⟩)) = false ∧
    wellFormed (.writeStoreBorderEntry 2 0 0 (some ⟨0, 0, 0, 256⟩)) = false := by decide
theorem test_wellFormed_retired : wellFormed (.writeStoreRetiredEntry 2 0 0 (some ⟨65536, 0, []⟩)) = false ∧
    wellFormed (.writeStoreRetiredEntry 2 0 0 (some ⟨0, 65536, []⟩)) = false ∧
    wellFormed (.writeStoreRetiredEntry 2 0 0 (some ⟨0, 0, [65536]⟩)) = false := by decide
theorem test_wellFormed_status : wellFormed (.status 0 0 ⟨.done, 32768, 0, false, ⟨false, false, false⟩⟩) = false ∧
    wellFormed (.status 0 0 ⟨.done, 0, -32769, false, ⟨false, false, false⟩⟩) = false := by decide
theorem test_wellFormed_bad : wellFormed (.badRequestFrame 0 (.wrongForm 256 0)) = false ∧
    wellFormed (.badRequestFrame 0 (.wrongForm 0 256)) = false := by decide
theorem test_wellFormed_received : wellFormed (.replyWindowEnd 0 (List.replicate 33 0)) = false := by decide
theorem test_wellFormed_claim : wellFormed (.claim 0 1 2 []) = false ∧ wellFormed (.claim 0 1 2 (List.replicate 33 0)) = false ∧
    wellFormed (.claim 0 1 2 [65536]) = false := by decide
theorem test_wellFormed_release : wellFormed (.release 0 1 []) = false ∧
    wellFormed (.release 0 1 (List.replicate 257 0)) = false := by decide +kernel
theorem test_wellFormed_report : wellFormed (.syncReport 0 1 (List.replicate 257 0) []) = false ∧
    wellFormed (.syncReport 0 1 [] (List.replicate 257 0)) = false := by decide +kernel

/-! ### Frames written out from the spec's layouts -/

/-- The body of the worked example of chapter 12: LOAD_SEGMENT, sequence number 9, for slot 53. -/
def exampleBody : List Byte :=
  [0x02, 0x09, 0x35, 0x01, 0x04, 0xB0, 0xFE, 0x70, 0x00, 0x00, 0x00, 0x01, 0x02, 0x01, 0xB6, 0x01, 0xD2, 0x01, 0x01, 0xD2, 0x00, 0x4D]

/-- What the example's text says the frame carries. -/
def exampleSegment : Descriptor :=
  { slot := 53, kind := 1, dTheta := 1200, dPhi := -400, axis := 0, duration := 0, rate := 1, sweep := [438, 466], ends := [466],
    tag := 77 }

theorem test_frame_example : (receive .port (envelope .port exampleBody)).map (portCommand 0) = [.loadSegment 0 9 exampleSegment] := by
  decide +kernel
theorem test_frame_example_envelope : (envelope .port exampleBody).take 3 = [0xA5, 0x00, 0x18] := by decide +kernel
theorem test_frame_bad_check : (receive .port ((envelope .port exampleBody).dropLast ++ [0])).map (portCommand 0) =
    [.badRequestFrame 0 .failedCheck] := by decide +kernel
theorem test_frame_unknown_code : portCommand 1 (.body [39, 5]) = .badRequestFrame 1 (.wrongForm 39 5) := by decide +kernel
theorem test_frame_short : portCommand 1 (.body [1, 5, 0]) = .badRequestFrame 1 (.wrongForm 1 5) := by decide +kernel
theorem test_frame_open : portCommand 0 (.body [1, 5, 0x01, 0x02]) = .openBatch 0 5 258 := by decide +kernel
theorem test_frame_ack : branchCommand 2 (.body [5, 1]) = .ack 2 5 := by decide +kernel
theorem test_frame_status : branchCommand 2 (.body [5, 3, 2, 0x04, 0xB0, 0xFE, 0x70, 0x09]) =
    .status 2 5 ⟨.done, 1200, -400, true, ⟨false, false, true⟩⟩ := by decide +kernel
theorem test_frame_grant : linkCommand 1 (.body [2, 7, 200]) = .grant 1 7 200 := by decide +kernel
theorem test_frame_sender : linkCommand 1 (.body [2, 64, 200]) = .borderFrameDiscarded 1 := by decide +kernel
theorem test_frame_claim : borderBytes 7 (.claim 9 [258]) = envelope .border [1, 7, 9, 1, 1, 2] := by decide +kernel

/-- No word of the table spells a command. -/
theorem test_decode (n w : Nat) : decodeTableWord n w = none := rfl
theorem test_frame_answer : PortFrame.body (.answer (ReqCode.loadSegment.answer 9 .ok (.segment 12))) = [1, 2, 9, 0, 0, 12] := by
  decide +kernel

/-! ### Witnesses: queue, reset, invariants -/

theorem witness_StepRunsFrontCommand : State.reset.pending = [] := rfl

theorem witness_ResetValues : (up .run).store = State.reset.store ∧ (up .run).stopLine = false ∧ (up .run).resetHeld = false ∧
    (up .run).pending = [] ∧ (up .run).strapReads = 0 := ⟨rfl, rfl, rfl, rfl, rfl⟩

/-- SCAN with no scan started. -/
theorem exec_scan_idle {s : State} (h : s.scanDue = false) : exec .scan s = .next s := by simp [exec, execScan, h]

/-- A SCAN with no scan started, waiting alone. -/
theorem step_scan_idle {s : State} (h : s.scanDue = false) : step { s with pending := [.scan] } = .next { s with pending := [] } :=
  exec_scan_idle (s := { s with pending := [] }) h

/-- A part in RUN with a SCAN waiting, and what is left of it after the step. -/
theorem step_scan : step { up .run with pending := [.scan] } = .next { up .run with pending := [] } := step_scan_idle rfl

theorem storeSound_blank : StoreSound Image.blank :=
  { fixedSet := by decide
    patrolSets := fun n l h => by
      have : Image.blank.patrol.get n = none := by clear h; revert n; decide +kernel
      rw [this] at h; cases h
    members := fun c => by
      show ((List.replicate 96 none).filter (memberOf c)).length ≤ 7
      rw [List.filter_eq_nil_iff.mpr]
      · decide
      · intro a ha
        rw [List.eq_of_mem_replicate ha]
        simp [memberOf]
    border := fun a b e f hab h => by
      have : Image.blank.border.get a = none := by clear h hab; revert a; decide +kernel
      rw [this] at h; cases h }

theorem witness_SoundKept : step { up .run with pending := [.scan] } = .next { up .run with pending := [] } ∧
    StoreSound { up .run with pending := [.scan] }.store.image ∧ TimebaseSound { up .run with pending := [.scan] }.timebase ∧
    QueueSound { up .run with pending := [.scan] }.queue :=
  ⟨step_scan, storeSound_blank, fun us h => by cases h; decide, ⟨by decide, by decide⟩⟩
theorem up_footprints : (up .run).FootprintsSound ∧ (up .run).OrphansShadowed := by
  refine ⟨⟨fun n e h => ?_, fun n e h => ?_, fun n a f l h => ?_, fun id g h => ?_⟩, fun c k h => ?_⟩
  · rw [show (up .run).store.image.retired.get n = none from Table.get_fill _ _] at h; cases h
  · rw [show (up .run).retired.get n = none from Table.get_fill _ _] at h; cases h
  · rw [show (up .run).slot n = .atReset from Table.get_fill _ _] at h; cases h
  · rw [show (up .run).seg id = none from Table.get_fill _ _] at h; cases h
  · rw [show (up .run).cell c = ⟨.free, 0⟩ from Table.get_fill _ _] at h; cases h
theorem footprints_waiting {s : State} (h : s.FootprintsSound ∧ s.OrphansShadowed) (l : List Instr) :
    { s with pending := l }.FootprintsSound ∧ { s with pending := l }.OrphansShadowed :=
  ⟨⟨h.1.stored, h.1.working, h.1.standing, h.1.ends⟩, h.2⟩
theorem witness_SoundKept_footprints : { up .run with pending := [.scan] }.FootprintsSound ∧
    { up .run with pending := [.scan] }.OrphansShadowed := footprints_waiting up_footprints [.scan]

theorem witness_PortSoundKept : step { up .run with pending := [.scan] } = .next { up .run with pending := [] } ∧
    (∀ p, PortSound ({ up .run with pending := [.scan] }.port p)) ∧ { up .run with pending := [.scan] }.RolesDistinct :=
  ⟨step_scan, fun p => by fin_cases p <;> exact ⟨by decide, by decide, by decide⟩, distinct_of (by decide +kernel)⟩

theorem witness_FixedCellsKept : mayReset .scan = false ∧
    exec .scan (own (up .run) 7 .fixed) = .next (own (up .run) 7 .fixed) ∧ ((own (up .run) 7 .fixed).cell 7).owner = .fixed :=
  ⟨rfl, rfl, by decide +kernel⟩

theorem witness_SettingsKept : writesSetting .scan = false := rfl

theorem witness_SectorMoves : mayReset (.resume 0 1) = false ∧
    runs (.resume 0 1) (up .hold) (fun t => decide (t.sector = .run)) = true := ⟨rfl, by decide +kernel⟩

theorem witness_ResetLineHolds : { up .run with resetHeld := true }.resetHeld = true ∧ (∀ x, Instr.scan ≠ .powerOn x) ∧
    Instr.scan ≠ .resetLineAssert ∧ (∀ x, Instr.scan ≠ .resetLineRelease x) ∧ Instr.scan ≠ .stopLineAssert ∧
    Instr.scan ≠ .stopLineRelease := by simp

theorem witness_ResetsRestart_released : { up .run with resetHeld := true }.resetHeld = true ∧ (up .run).resetHeld = false := ⟨rfl, rfl⟩
theorem witness_ResetsRestart_taken : (up .run).Takes 2 .service .resetSector := takes_of (by decide +kernel)
/-- The SERVICE port with the answer of its RESET_SECTOR on the line. -/
def resetting : State := (up .run).updPort 2 fun q =>
  { q with busy := true, inHand := some ⟨36, 4⟩, sending := some (.answer (ReqCode.resetSector.answer 4 .ok .none)) }
theorem witness_ResetsRestart_sent : resetting.resetHeld = false ∧
    (resetting.port 2).sending = some (.answer (ReqCode.resetSector.answer 4 .ok .none)) := by decide +kernel

theorem witness_LoadPhaseEnds : State.reset.resetHeld = false ∧ State.reset.phase = .load ∧ State.reset.sector ≠ .stopping ∧
    (∀ b, State.reset.branch b = .atReset) ∧ (∀ n, (State.reset.slot n).state = .absent ∨ (State.reset.slot n).state = .retired) ∧
    (up .run).phase ≠ .load := by decide +kernel

/-! ### Witnesses: ports -/

theorem witness_RequestsRefusedAtThePort_role : requestOf (.openBatch 1 5 1) = some (1, .openBatch, 5) ∧ (up .run).Ready 1 .metro ∧
    ReqCode.openBatch.allowed .metro = false := ⟨rfl, ready_of (by decide +kernel), rfl⟩
theorem witness_RequestsRefusedAtThePort_unconfigured : requestOf (.openBatch 0 5 1) = some (0, .openBatch, 5) ∧
    State.reset.Ready 0 .plan ∧ ReqCode.openBatch.allowed .plan = true ∧ State.reset.sector = .unconfigured ∧
    Role.plan ≠ .service ∧ ReqCode.openBatch.passesUnconfigured = false :=
  ⟨rfl, ready_of (by decide +kernel), rfl, rfl, by decide, rfl⟩

/-- Port 0 busy. -/
def busy : State := (up .run).updPort 0 fun q => { q with busy := true, inHand := some ⟨8, 1⟩ }
theorem witness_BusyPortRefuses : requestOf (.hold 0 5) = some (0, .hold, 5) ∧ 8 = ReqCode.hold.number ∧ busy.resetHeld = false ∧
    (busy.port 0).role = some .plan ∧ (busy.port 0).busy = true := by decide +kernel

/-- Port `p` with a frame on its line, answers and notices behind it. -/
def lining (s : State) (p : PortId) (f : PortFrame) (a : List Answer) (n : List Notice) (k : SentKind) : State :=
  s.updPort p fun q => { q with busy := true, inHand := some ⟨8, 1⟩, sending := some f, answers := a, notices := n, lastKind := k }
/-- An answer of a HOLD. -/
def held : PortFrame := .answer (ReqCode.hold.answer 1 .ok .none)
/-- A notice. -/
def told : Notice := .sectorState .run

theorem witness_SentFrameFreesThePort_own : (lining (up .run) 0 held [] [] .notice).resetHeld = false ∧
    ((lining (up .run) 0 held [] [] .notice).port 0).sending = some held ∧ held.resets = false ∧ held.own = true := by decide +kernel
theorem witness_SentFrameFreesThePort_notice :
    ((lining (up .run) 0 (.notice told) [] [] .notice).port 0).sending = some (.notice told) ∧
    PortFrame.resets (.notice told) = false ∧ PortFrame.own (.notice told) = false := by decide +kernel

/-- A stream of 2 records from slot 3 runs. -/
def streaming : State := { up .run with stream := some { first := 3, count := 2, sent := 0 } }
theorem witness_NextFrameBegins_ports :
    (lining streaming 1 held [] [told] .record).resetHeld = false ∧ (lining streaming 1 held [] [told] .record).RolesDistinct ∧
    ((lining streaming 1 held [] [told] .record).port 1).role = some .metro ∧
    ((lining streaming 1 held [] [told] .record).port 1).sending = some held ∧ held.resets = false :=
  ⟨rfl, distinct_of (by decide +kernel), by decide +kernel, by decide +kernel, by decide⟩
theorem witness_NextFrameBegins_answer :
    ((lining streaming 1 (.notice told) [ReqCode.hold.answer 1 .ok .none] [told] .notice).port 1).answers =
      ReqCode.hold.answer 1 .ok .none :: [] := rfl
theorem witness_NextFrameBegins_notice : ((lining streaming 1 held [] [told] .record).port 1).answers = [] ∧
    ((lining streaming 1 held [] [told] .record).port 1).notices = told :: [] ∧
    ((lining streaming 1 held [] [told] .record).port 1).lastKind = .record := ⟨rfl, rfl, rfl⟩
theorem witness_NextFrameBegins_record : ((lining streaming 1 held [] [told] .notice).port 1).answers = [] ∧ Role.metro = .metro ∧
    (lining streaming 1 held [] [told] .notice).stream = some { first := 3, count := 2, sent := 0 } ∧ (3 : SlotId).val = 3 + 0 ∧
    ((lining streaming 1 held [] [told] .notice).port 1).lastKind = .notice := ⟨rfl, rfl, rfl, rfl, rfl⟩
theorem witness_NextFrameBegins_nothing : ((lining (up .run) 1 held [] [] .notice).port 1).answers = [] ∧
    ((lining (up .run) 1 held [] [] .notice).port 1).notices = [] ∧ (lining (up .run) 1 held [] [] .notice).stream = none :=
  ⟨rfl, rfl, rfl⟩

theorem witness_NoticeOffered_queued : told.kind = some .sectorState ∧ ((up .run).port 0).role = some .plan ∧
    ((up .run).port 0).subscribed .sectorState = true ∧ ((up .run).port 0).notices.length < 32 := by decide +kernel
theorem witness_NoticeOffered_full : ((lining (up .run) 0 held [] (List.replicate 32 told) .notice).port 0).role = some .plan ∧
    32 ≤ ((lining (up .run) 0 held [] (List.replicate 32 told) .notice).port 0).notices.length := by decide +kernel
theorem witness_NoticeOffered_unsubscribed : ((up .run).port 0).subscribed .segDone = false := by decide +kernel
theorem witness_NoticeOffered_disabled :
    (((up .run).updPort 0 fun q => { q with role := none }).port 0).role = none := by decide +kernel
theorem witness_NoticeOffered_streamEnd : Notice.kind (.streamEnd 1 true) = some .streamEnd ∧
    ((up .run).port 0).role ≠ some .metro := by decide +kernel

theorem witness_SubscribeReplaces : (up .run).Ready 0 .plan ∧ (up .run).RolesDistinct :=
  ⟨ready_of (by decide +kernel), distinct_of (by decide +kernel)⟩
/-- Port 0 with `k` notices waiting and counts of SEG_DONE and SEG_FAILED held over. -/
def crammed (k : Nat) : State := (up .run).updPort 0 fun q =>
  { q with notices := List.replicate k told, subs := 0, heldOver := (q.heldOver.set 0 3).set 1 4 }
theorem test_subscribe_room : runs (.subscribe 0 5 0xFF) (crammed 31) (fun t =>
    decide ((t.port 0).notices = List.replicate 31 told ++ [.summary .segDone 3]) && decide ((t.port 0).heldOver.get 1 = 4)) = true ∧
    runs (.subscribe 0 5 0xFF) (crammed 32) (fun t => decide ((t.port 0).notices.length = 32) &&
      decide ((t.port 0).heldOver.get 0 = 3)) = true := by decide +kernel
theorem witness_QueryNoticesAnswers : State.reset.Ready 1 .metro ∧ State.reset.RolesDistinct :=
  ⟨ready_of (by decide +kernel), distinct_of (by decide +kernel)⟩

/-! ### Witnesses: batches -/

/-- The load-error flag set. -/
def erring : State := { up .hold with loadError := true }
theorem witness_OpenBatchJudged_flag : erring.Takes 0 .plan .openBatch ∧ erring.loadError = true := ⟨takes_of (by decide +kernel), rfl⟩
theorem witness_OpenBatchJudged_clear : (up .hold).Takes 0 .plan .openBatch ∧ (up .hold).loadError = false ∧
    (up .hold).openBatch = none := ⟨takes_of (by decide +kernel), rfl, by decide +kernel⟩
/-- Batch 5 RUNNING at place 0. -/
def running : State := withBatch (up .run) (batchAs 5 .running 1 1 [])
theorem witness_OpenBatchJudged_held : running.Takes 0 .plan .openBatch ∧ running.openBatch = none ∧
    running.batchOf 5 = some (batchAs 5 .running 1 1 []) ∧ running.batchOf 6 = none :=
  ⟨takes_of (by decide +kernel), by decide +kernel, by decide +kernel, by decide +kernel⟩
/-- Every record RUNNING. -/
def full : State := { up .run with batches := .fill 4 (some (batchAs 5 .running 1 1 [])) }
theorem witness_OpenBatchJudged_full : full.Takes 0 .plan .openBatch ∧ full.openBatch = none ∧ full.batchOf 6 = none ∧
    (∀ i, full.batches.get i = some (batchAs 5 .running 1 1 []) ∧ (batchAs 5 .running 1 1 []).endOrder = none) :=
  ⟨takes_of (by decide +kernel), by decide +kernel, by decide +kernel, by decide +kernel⟩
theorem witness_OpenBatchJudged_free : running.batches.get 1 = none ∧ ∀ j, j < 1 → running.batches.get j ≠ none := by decide +kernel
/-- Record 2 ended, the others RUNNING. -/
def ended : State := { full with batches := full.batches.set 2 (some { batchAs 7 .done 1 0 [] with endOrder := some 3 }) }
theorem witness_OpenBatchJudged_reused : ended.openBatch = none ∧ ended.batchOf 6 = none ∧ (∀ j, ended.batches.get j ≠ none) ∧
    ended.endOrderAt 2 = some 3 ∧ ∀ j, j ≠ 2 → ended.endOrderAt j = none := by decide +kernel

/-- Batch 5 OPEN with segment 0 staged for slot 3, which is PARKED. -/
def staged : State :=
  { withSeg (withBatch (put (up .hold) 3 (slotAs .parked home)) (batchAs 5 .opened 1 0 [0])) 0 (moveSeg 3 .staged (some 5)) with
    free := [1, 2, 3] }
theorem witness_SequenceViolations_open : staged.Takes 0 .plan .openBatch ∧ staged.loadError = false ∧
    staged.openBatch = some (batchAs 5 .opened 1 0 [0]) ∧ (batchAs 5 .opened 1 0 [0]).id ≠ 6 :=
  ⟨takes_of (by decide +kernel), rfl, by decide +kernel, by decide⟩
theorem witness_SequenceViolations_commit : staged.Takes 0 .plan .commitBatch ∧ (up .hold).Takes 0 .plan .commitBatch ∧
    (up .hold).loadError = false ∧ (up .hold).openBatch = none :=
  ⟨takes_of (by decide +kernel), takes_of (by decide +kernel), rfl, by decide +kernel⟩
theorem witness_SequenceViolations_others : (up .hold).Takes 0 .plan .loadSegment ∧ staged.Takes 0 .plan .cancelOpen ∧
    (up .hold).Takes 0 .plan .cancelOpen ∧ (up .hold).Takes 0 .plan .ackLoadError :=
  ⟨takes_of (by decide +kernel), takes_of (by decide +kernel), takes_of (by decide +kernel), takes_of (by decide +kernel)⟩

theorem witness_LoadSegmentJudged : staged.Takes 0 .plan .loadSegment ∧ staged.openBatch = some (batchAs 5 .opened 1 0 [0]) ∧
    staged.loadError = false := ⟨takes_of (by decide +kernel), by decide +kernel, rfl⟩
theorem witness_LoadSegmentJudged_flag : erring.Takes 0 .plan .loadSegment ∧ erring.Takes 0 .plan .commitBatch ∧
    erring.loadError = true ∧ erring.openBatch = none := ⟨takes_of (by decide +kernel), takes_of (by decide +kernel), rfl, rfl⟩
theorem witness_LoadSegmentJudged_read : Descriptor.read { descr with slot := 96 } = none ∧
    Descriptor.read descr = some (3, .move 2 3 1 [10, 11] [11]) := by decide
theorem witness_LoadSegmentJudged_states : ((up .hold).slot 3).state = .absent ∧
    ((put staged 3 (slotAs .retired home)).slot 3).state = .retired ∧ (staged.slot 3).state ≠ .absent ∧
    (staged.slot 3).state ≠ .retired := by decide +kernel
theorem witness_LoadSegmentJudged_sweep :
    (∃ c ∈ SegBody.sweep (.move 2 3 1 [10, 11] [11]), c ∈ { staged with fixed := [11] }.fixed) ∧
    ∀ c ∈ SegBody.sweep (.move 2 3 1 [10, 11] [11]), c ∉ staged.fixed :=
  ⟨⟨11, by decide, by decide⟩, fun _ _ => List.not_mem_nil⟩
/-- Cells 10 and 11 with their homes on two links. -/
def divided : State :=
  { staged with border := [{ cell := 10, link := 0, theirs := 1, home := .remote }, { cell := 11, link := 1, theirs := 1, home := .remote }] }
theorem witness_LoadSegmentJudged_links :
    (∃ a ∈ SegBody.sweep (.move 2 3 1 [10, 11] [11]), ∃ c ∈ SegBody.sweep (.move 2 3 1 [10, 11] [11]), ∃ j k,
      divided.remoteLink a = some j ∧ divided.remoteLink c = some k ∧ j ≠ k) ∧
    ∀ a, staged.remoteLink a = none :=
  ⟨⟨10, by decide, 11, by decide, 0, 1, by decide, by decide, by decide⟩, fun _ => rfl⟩
theorem witness_LoadSegmentJudged_room : { staged with free := [] }.free = [] ∧ staged.free = 1 :: staged.free.tail ∧
    staged.stagedFor (batchAs 5 .opened 1 0 [0]) 3 + (staged.slot 3).chain.length + 1 ≤ 32 ∧
    32 < (put staged 3 (chained .parked home (List.replicate 31 1))).stagedFor (batchAs 5 .opened 1 0 [0]) 3 +
      ((put staged 3 (chained .parked home (List.replicate 31 1))).slot 3).chain.length + 1 ∧
    (put staged 3 (chained .parked home (List.replicate 30 1))).stagedFor (batchAs 5 .opened 1 0 [0]) 3 +
      ((put staged 3 (chained .parked home (List.replicate 30 1))).slot 3).chain.length + 1 ≤ 32 := by decide +kernel

theorem witness_CommitJudged : staged.Takes 0 .plan .commitBatch ∧ staged.openBatch = some (batchAs 5 .opened 1 0 [0]) ∧
    staged.loadError = false ∧ (batchAs 5 .opened 1 0 [0]).loaded ≠ 0 := ⟨takes_of (by decide +kernel), by decide +kernel, rfl, by decide⟩
theorem witness_CommitJudged_retired : 0 < (put staged 3 (slotAs .retired home)).stagedFor (batchAs 5 .opened 1 0 [0]) 3 ∧
    ((put staged 3 (slotAs .retired home)).slot 3).state = .retired ∧
    ∀ m, m < 3 → (put staged 3 (slotAs .retired home)).stagedFor (batchAs 5 .opened 1 0 [0]) m = 0 := by decide +kernel
theorem witness_CommitJudged_full :
    32 < (put staged 3 (chained .parked home (List.replicate 32 1))).stagedFor (batchAs 5 .opened 1 0 [0]) 3 +
      ((put staged 3 (chained .parked home (List.replicate 32 1))).slot 3).chain.length ∧
    (∀ n, 0 < staged.stagedFor (batchAs 5 .opened 1 0 [0]) n → n = 3) := by decide +kernel
theorem witness_CommitJudged_room : (∀ n, 0 < staged.stagedFor (batchAs 5 .opened 1 0 [0]) n →
      (staged.slot n).state ≠ .retired ∧
      staged.stagedFor (batchAs 5 .opened 1 0 [0]) n + (staged.slot n).chain.length ≤ 32) ∧
    ∀ i j x y, staged.batches.get i = some x → staged.batches.get j = some y → x.id = y.id → i = j := by
  refine ⟨by decide +kernel, fun i j x y hx hy _ => ?_⟩
  have h : ∀ i, i ≠ 0 → staged.batches.get i = none := by decide +kernel
  have hi : i = 0 := by by_contra hi; rw [h i hi] at hx; cases hx
  have hj : j = 0 := by by_contra hj; rw [h j hj] at hy; cases hy
  rw [hi, hj]
theorem witness_CommitJudged_empty : (withBatch (up .hold) (batchAs 5 .opened 0 0 [])).openBatch = some (batchAs 5 .opened 0 0 []) ∧
    (batchAs 5 .opened 0 0 []).loaded = 0 := by decide +kernel

theorem witness_AbortJudged_running : running.Takes 0 .plan .abortBatch ∧ running.batchOf 5 = some (batchAs 5 .running 1 1 []) ∧
    (batchAs 5 .running 1 1 []).state = .running ∧
    ∀ i j x y, running.batches.get i = some x → running.batches.get j = some y → x.id = y.id → i = j := by
  refine ⟨takes_of (by decide +kernel), by decide +kernel, rfl, fun i j x y hx hy _ => ?_⟩
  have h : ∀ i, i ≠ 0 → running.batches.get i = none := by decide +kernel
  have hi : i = 0 := by by_contra hi; rw [h i hi] at hx; cases hx
  have hj : j = 0 := by by_contra hj; rw [h j hj] at hy; cases hy
  rw [hi, hj]
theorem witness_AbortJudged_others : running.batchOf 6 = none ∧ staged.batchOf 5 = some (batchAs 5 .opened 1 0 [0]) ∧
    (withBatch (up .run) (batchAs 5 .aborting 1 1 [])).batchOf 5 = some (batchAs 5 .aborting 1 1 []) ∧
    (withBatch (up .run) (batchAs 5 .done 1 0 [])).batchOf 5 = some (batchAs 5 .done 1 0 []) ∧
    (withBatch (up .run) (batchAs 5 .aborted 1 0 [])).batchOf 5 = some (batchAs 5 .aborted 1 0 []) := by decide +kernel
/-- Batch 5 RUNNING with segment 0 CHAINED in slot 0. -/
def chaining : State := withSeg (put running 0 (chained .unknown .lost [0])) 0 (moveSeg 0 .chained (some 5))
theorem witness_AbortSkips : chaining.Takes 0 .plan .abortBatch ∧ chaining.batchOf 5 = some (batchAs 5 .running 1 1 []) ∧
    (∃ t, exec (.abortBatch 0 1 5) chaining = .next t) :=
  ⟨takes_of (by decide +kernel), by decide +kernel, ⟨_, rfl⟩⟩

/-- The segment of `agreeing`. -/
def chainedSeg : Segment := moveSeg 0 .chained (some 5)

/-- `chaining`, its slot casting its shadow and its records in agreement; the sector STOPPED. -/
def agreeingIdle : State := { chaining.castShadow 0 with free := (List.finRange 1024).filter (· ≠ 0), sector := .stopped }
/-- As `agreeingIdle`, a SCAN waiting. -/
def agreeing : State := { agreeingIdle with pending := [.scan] }

theorem agreeing_seg (id : SegId) : agreeing.seg id = if id = 0 then some chainedSeg else none := by
  show (State.reset.pool.set 0 (some chainedSeg)).get id = _
  rw [Table.get_set]
  by_cases h : id = 0
  · simp [h]
  · rw [if_neg (Ne.symm h), if_neg h]; exact Table.get_fill _ _

theorem agreeing_chain : ∀ n, (agreeing.slot n).chain = if n = 0 then [0] else [] := by decide +kernel

theorem agreeing_batch : ∀ i, agreeing.batches.get i = if i = 0 then some (batchAs 5 .running 1 1 []) else none := by decide +kernel

theorem agreeing_branch : ∀ b, agreeing.branch b = .atReset := by decide +kernel

theorem agreeing_count : (agreeing.liveCount fun g => decide (g.batch = some 5)) = 1 := by decide +kernel

theorem agreeing_free : agreeing.free = (List.finRange 1024).filter (· ≠ 0) := by delta agreeing agreeingIdle; dsimp only

/-- A state whose one segment, number 0, stands in slot 0's chain for batch 5, with no order on any branch but its own on the bus, has its records in
agreement. -/
theorem ledger_of_one {s : State} {g : Segment} (hs : ∀ id, s.seg id = if id = 0 then some g else none)
    (hc : ∀ n, (s.slot n).chain = if n = 0 then [0] else [])
    (hb : ∀ i, s.batches.get i = if i = 0 then some (batchAs 5 .running 1 1 []) else none)
    (hq : ∀ b, (s.branch b).queue = [] ∧ (s.branch b).backlog = [] ∧ (s.branch b).poll = [] ∧
      ∀ o l, (s.branch b).bus = some { call := .entry (.order o), left := l } → o.seg = 0 ∧ slotOf b o.drop = 0)
    (hn : (s.liveCount fun g => decide (g.batch = some 5)) = 1) (hf : s.free = (List.finRange 1024).filter (· ≠ 0))
    (h0 : g.slot = 0) (h5 : g.batch = some 5) (hst : g.state ≠ .staged) : s.Ledger where
  freeOnce := by rw [hf]; exact (List.nodup_finRange 1024).filter _
  freeRecords id := by
    rw [hs, hf, List.mem_filter, decide_eq_true_iff]
    by_cases h : id = 0
    · simp only [h, if_true, reduceCtorEq, iff_false, not_and, not_not, implies_true]
    · simp only [h, if_false, not_false_eq_true, and_true, iff_true, ne_eq]
      exact List.mem_finRange id
  chainOnce n := by rw [hc]; split <;> decide
  chains n id := by
    rw [hc, hs]
    by_cases h : n = 0 <;> by_cases h' : id = 0 <;> simp [h, h', h0, Ne.symm hst, eq_comm]
  batchIds i j x y := by
    rw [hb, hb]
    by_cases h : i = 0 <;> by_cases h' : j = 0 <;> simp [h, h']
  openOnce i j x y := by
    rw [hb, hb]
    by_cases h : i = 0 <;> by_cases h' : j = 0 <;> simp [h, h']
  batches i x := by
    rw [hb]
    by_cases h : i = 0
    · rw [if_pos h, Option.some.injEq]
      rintro rfl
      exact ⟨fun h => (by cases h), fun _ => ⟨rfl, rfl, hn.symm⟩, by decide⟩
    · simp [h]
  owned id x b := by
    rw [hs]
    by_cases h : id = 0
    · rw [if_pos h, Option.some.injEq]
      rintro rfl hx
      exact ⟨0, _, hb 0, by simpa [h5, batchAs] using hx, by simp [hst, batchAs]⟩
    · simp [h]
  unowned id x := by
    rw [hs]
    by_cases h : id = 0
    · rw [if_pos h, Option.some.injEq]
      rintro rfl hx
      rw [h5] at hx; cases hx
    · simp [h]
  queued b o h := by rw [(hq b).1] at h; cases h
  setBack b o h := by rw [(hq b).2.1] at h; cases h
  onBus b o l h := by rw [((hq b).2.2.2 o l h).1, ((hq b).2.2.2 o l h).2, hc]; decide
  polled b e h := by rw [(hq b).2.2.1] at h; cases h

theorem agreeing_ledger : agreeing.Ledger :=
  ledger_of_one agreeing_seg agreeing_chain agreeing_batch
    (fun b => by rw [agreeing_branch]; exact ⟨rfl, rfl, rfl, fun _ _ h => (by cases h)⟩) agreeing_count agreeing_free rfl rfl (by decide)

theorem agreeing_slots : agreeing.slots.items = chained .unknown .lost [0] :: List.replicate 95 .atReset := by decide +kernel

theorem agreeing_states : ∀ n, (agreeing.slot n).state = if n = 0 then .unknown else .absent := by decide +kernel

theorem agreeing_stands : ∀ n, (agreeing.slot n).stand = .lost ∧ ((agreeing.slot n).populated = true ↔ n = 0) := by decide +kernel

theorem agreeing_field : agreeing.FieldSound where
  shadow c := by
    rw [agreeing_slots]
    have h : agreeing.cell c = if named c.val [10, 11, 12, 13] then { owner := .free, shadow := 1 } else { owner := .free, shadow := 0 } := by
      show ((Table.fill 2048 _).mapIdx _).get c = _
      rw [Table.get_mapIdx, Table.get_fill]; rfl
    have ho : Slot.casts c (chained .unknown .lost [0]) = decide (c ∈ ([10, 11, 12, 13] : List CellId)) := rfl
    have hr : Slot.casts c .atReset = false := rfl
    have hn : named c.val [10, 11, 12, 13] = decide (c ∈ ([10, 11, 12, 13] : List CellId)) := by
      rw [Bool.eq_iff_iff, named_iff, decide_eq_true_iff]
    rw [h, hn, List.countP_cons, List.countP_replicate, ho, hr]
    split <;> simp
  patrols c := by
    rw [agreeing_slots, List.countP_cons, List.countP_replicate]
    have hr : decide (c ∈ Slot.atReset.patrol) = false := rfl
    rw [hr]
    show (if false = true then 95 else 0) + _ ≤ 7
    split <;> split <;> simp_all
  absent n h := by
    have hn : n ≠ 0 := fun hn => by rw [agreeing_states, if_pos hn] at h; cases h
    exact ⟨by have := (agreeing_stands n).2; simpa [hn] using this, (agreeing_stands n).1, by rw [agreeing_chain, if_neg hn]⟩
  present n h := by
    rw [agreeing_states] at h
    by_cases hn : n = 0
    · exact (agreeing_stands n).2.mpr hn
    · simp [hn] at h
  retired n h := by rw [agreeing_states] at h; split at h <;> cases h
  segments id g h := by
    rw [agreeing_seg] at h
    split at h
    · cases h; decide +kernel
    · cases h
/-- A step of `agreeing`: its SCAN changes nothing but the queue of commands. -/
theorem agreeing_step : step agreeing = .next { agreeingIdle with pending := [] } :=
  step_scan_idle (s := agreeingIdle) (by delta agreeingIdle; rfl)
theorem agreeing_unaborted : agreeing.NoneChainedAborting := fun id g i x _ hx _ hs => by
  rw [agreeing_batch] at hx
  split at hx
  · cases hx; cases hs
  · cases hx
theorem agreeing_ungranted : agreeing.NoneGrantedStopped := fun _ _ id g h => by
  rw [agreeing_seg] at h
  split at h
  · cases h; decide
  · cases h
theorem witness_AbortSkips_step : agreeing.Ledger ∧ agreeing.NoneChainedAborting ∧ ∃ t, step agreeing = .next t :=
  ⟨agreeing_ledger, agreeing_unaborted, _, agreeing_step⟩

/-! ### Witnesses: queries, sector -/

theorem witness_QueriesAnswer_taken : (up .run).Takes 0 .plan .queryBatch ∧ (up .run).Takes 2 .service .queryQueue ∧
    (up .run).Takes 2 .service .queryBranch ∧ (up .run).Takes 2 .service .queryLink ∧ (up .run).Ready 1 .metro :=
  ⟨takes_of (by decide +kernel), takes_of (by decide +kernel), takes_of (by decide +kernel), takes_of (by decide +kernel),
    ready_of (by decide +kernel)⟩
theorem witness_QueriesAnswer_batch : running.Takes 0 .plan .queryBatch ∧ running.batchOf 5 = some (batchAs 5 .running 1 1 []) ∧
    running.batchOf 6 = none := ⟨takes_of (by decide +kernel), by decide +kernel, by decide +kernel⟩
theorem witness_QueriesAnswer_ranges : 95 < 96 ∧ 95 = (95 : SlotId).val ∧ 3 < 4 ∧ 3 = (3 : BranchId).val ∧ 3 = (3 : LinkId).val := by
  decide
theorem witness_QueriesAnswer_rest : ((put (up .run) 95 (slotAs .parked home)).slot 95).state ≠ .absent ∧
    ((put (up .run) 95 (slotAs .parked home)).slot 95).state ≠ .retired := by decide +kernel

theorem witness_QueryCellAnswers : State.reset.Ready 2 .service ∧ 2047 < 2048 ∧ 2047 = (2047 : CellId).val :=
  ⟨ready_of (by decide +kernel), by decide, by decide⟩

theorem witness_ResumeJudged_unconfigured : State.reset.Ready 0 .plan ∧ Role.plan ≠ .metro ∧ State.reset.sector = .unconfigured :=
  ⟨ready_of (by decide +kernel), by decide, rfl⟩
theorem witness_ResumeJudged_states : (up .starting).Ready 2 .service ∧ (up .starting).sector = .starting ∧
    (up .stopping).sector = .stopping ∧ (up .stopped).sector = .stopped ∧ (up .run).sector = .run :=
  ⟨ready_of (by decide +kernel), rfl, rfl, rfl, rfl⟩
theorem witness_ResumeJudged_held : (up .hold).Ready 0 .plan ∧ (up .hold).sector = .hold ∧ (up .hold).stopLine = false ∧
    (up .hold).timebase ≠ none ∧ { up .hold with stopLine := true }.stopLine = true ∧
    { up .hold with timebase := none }.timebase = none := ⟨ready_of (by decide +kernel), rfl, rfl, by decide, rfl, rfl⟩

theorem witness_HoldTaken : (up .hold).Ready 1 .metro ∧ (up .hold).sector ≠ .run ∧ (up .run).Ready 1 .metro ∧ (up .run).sector = .run ∧
    QueueSound waiting.queue := ⟨ready_of (by decide +kernel), by decide, ready_of (by decide +kernel), rfl, by decide, by decide⟩
theorem witness_StopTaken : (up .run).Ready 1 .metro ∧ (up .run).resetHeld = false ∧ (up .starting).sector = .starting ∧
    (up .hold).sector = .hold ∧ (up .stopped).sector = .stopped := ⟨ready_of (by decide +kernel), rfl, rfl, rfl, rfl⟩
/-- Slot 0 under segment 0 of batch 5, ACTIVE, in RUN, with a call on the bus of branch 0. -/
def activeAlone (st : SlotState) (body : SegBody) (c : Call) : State :=
  { calling (withSeg (put running 0 (chained st home [0])) 0 { moveSeg 0 .active (some 5) with body := body }) c 0 with
    free := (List.finRange 1024).filter (· ≠ 0), dwell := (up .run).dwell.set 0 (some 900) }
theorem activeAlone_ledger {st : SlotState} {body : SegBody} {c : Call}
    (hc : ∀ n, ((activeAlone st body c).slot n).chain = if n = 0 then [0] else [])
    (hb : ∀ i, (activeAlone st body c).batches.get i = if i = 0 then some (batchAs 5 .running 1 1 []) else none)
    (hq : ∀ b, ((activeAlone st body c).branch b).queue = [] ∧ ((activeAlone st body c).branch b).backlog = [] ∧
      ((activeAlone st body c).branch b).poll = [] ∧
      (((activeAlone st body c).branch b).busOrder.all fun o => decide (o.seg = 0 ∧ slotOf b o.drop = 0)) = true)
    (hn : ((activeAlone st body c).liveCount fun g => decide (g.batch = some 5)) = 1) : (activeAlone st body c).Ledger :=
  ledger_of_one (g := { moveSeg 0 .active (some 5) with body := body })
    (fun id => by
      show (State.reset.pool.set 0 (some _)).get id = _
      rw [Table.get_set]
      by_cases h : id = 0
      · simp [h]
      · rw [if_neg (Ne.symm h), if_neg h]; exact Table.get_fill _ _)
    hc hb (fun b => ⟨(hq b).1, (hq b).2.1, (hq b).2.2.1, fun o l h => by
      have := (hq b).2.2.2
      simpa [Branch.busOrder, h] using this⟩)
    hn (by delta activeAlone; dsimp only) rfl rfl (fun h => by cases h)
/-- Slot 0 DWELLING, a halt on the bus; and slot 0 MOVING, its order on the bus. -/
def dwellingAlone : State := activeAlone .dwelling (.dwell 1) .halt
def sendingAlone : State := activeAlone .moving (.move 2 3 1 [10, 11] [11]) (.entry (.order (orderOf 0 none)))
theorem dwellingAlone_ledger : dwellingAlone.Ledger :=
  activeAlone_ledger (by decide +kernel) (by decide +kernel) (by decide +kernel) (by decide +kernel)
theorem sendingAlone_ledger : sendingAlone.Ledger :=
  activeAlone_ledger (by decide +kernel) (by decide +kernel) (by decide +kernel) (by decide +kernel)
theorem witness_StopTaken_dwell : dwellingAlone.Ready 1 .metro ∧ dwellingAlone.resetHeld = false ∧ dwellingAlone.sector = .run ∧
    dwellingAlone.Ledger ∧ (dwellingAlone.branch 0).bus = some { call := .halt, left := 0 } ∧ (dwellingAlone.branch 1).bus = none ∧
    dwellingAlone.activeDwell 0 = some (0, { moveSeg 0 .active (some 5) with body := .dwell 1 }) ∧
    (dwellingAlone.branch (branchOf 0)).orders = [] ∧ (∀ x ∈ dwellingAlone.grantedSegs 0, x.2.state = .active → x.1 = 0) ∧
    dwellingAlone.batches.get 0 = some (batchAs 5 .running 1 1 []) :=
  ⟨ready_of (by decide +kernel), rfl, rfl, dwellingAlone_ledger, by decide +kernel, by decide +kernel, by decide +kernel,
    by decide +kernel, by decide +kernel, by decide +kernel⟩
theorem witness_StopTaken_order : sendingAlone.Ready 1 .metro ∧ sendingAlone.resetHeld = false ∧ sendingAlone.sector = .run ∧
    sendingAlone.Ledger ∧ (sendingAlone.branch 0).bus = some { call := .entry (.order (orderOf 0 none)), left := 0 } ∧
    (sendingAlone.branch 0).orders = [] ∧ sendingAlone.seg (orderOf 0 none).seg = some (moveSeg 0 .active (some 5)) ∧
    ∀ d, (moveSeg 0 .active (some 5)).body ≠ .dwell d :=
  ⟨ready_of (by decide +kernel), rfl, rfl, sendingAlone_ledger, by decide +kernel, by decide +kernel, by decide +kernel,
    fun d h => by cases h⟩
theorem witness_WithdrawalsMade : (up .run).Ready 1 .metro ∧ (up .run).sector = .run ∧ (∃ t, exec (.hold 1 5) (up .run) = .next t) ∧
    ∃ t, exec (.stop 1 5) (up .run) = .next t := ⟨ready_of (by decide +kernel), rfl, ⟨_, rfl⟩, ⟨_, rfl⟩⟩
theorem witness_WithdrawalsMade_step : agreeing.Ledger ∧ agreeing.NoneGrantedStopped ∧ agreeing.sector ≠ .run ∧
    agreeing.sector ≠ .hold ∧ ∃ t, step agreeing = .next t :=
  ⟨agreeing_ledger, agreeing_ungranted, by decide, by decide, _, agreeing_step⟩

/-! ### Witnesses: slots, metrology, senses -/

theorem witness_ClearFaultJudged : (put (up .hold) 95 (slotAs .faulted home)).Takes 2 .service .clearFault ∧ 95 = (95 : SlotId).val ∧
    ((put (up .hold) 95 (slotAs .faulted home)).slot 95).state = .faulted ∧
    (put (up .hold) 95 (slotAs .faulted home)).inQueue 95 = false ∧ ((put (up .hold) 95 (slotAs .faulted home)).slot 95).chain = [] ∧
    ((up .hold).slot 95).state = .absent ∧ ((put (up .hold) 95 (slotAs .parked home)).slot 95).state ≠ .absent ∧
    ((put (up .hold) 95 (slotAs .parked home)).slot 95).state ≠ .faulted ∧ 95 < 96 :=
  ⟨takes_of (by decide +kernel), rfl, by decide +kernel, by decide +kernel, by decide +kernel, by decide +kernel,
    by decide +kernel, by decide +kernel, by decide⟩

theorem witness_RetireJudged : (up .hold).Takes 0 .plan .retire ∧ (up .hold).Takes 2 .service .unretire ∧
    ((up .hold).slot 3).state = .absent ∧ ((put (up .hold) 3 (slotAs .retired home)).slot 3).state = .retired ∧
    ((put (up .hold) 3 (chained .parked home [0])).slot 3).chain ≠ [] ∧
    ((put (up .hold) 3 (slotAs .parked home)).slot 3).state = .parked ∧ ((put (up .hold) 3 (slotAs .parked home)).slot 3).chain = [] ∧
    ((put (up .hold) 3 (slotAs .parked home)).slot 3).stand = .footprint 5 6 [10] ∧
    ((put (up .hold) 3 (slotAs .faulted home)).slot 3).state = .faulted ∧
    ((put (up .hold) 3 (slotAs .unknown .lost)).slot 3).state = .unknown :=
  ⟨takes_of (by decide +kernel), takes_of (by decide +kernel), by decide +kernel⟩
theorem witness_RetireJudged_lost : ((put (up .hold) 3 (slotAs .faulted .lost)).slot 3).state = .faulted ∧
    ∀ a f l, ((put (up .hold) 3 (slotAs .faulted .lost)).slot 3).stand ≠ .footprint a f l := by
  refine ⟨by decide +kernel, fun a f l h => ?_⟩
  have : ((put (up .hold) 3 (slotAs .faulted .lost)).slot 3).stand = .lost := by decide +kernel
  rw [this] at h; cases h

/-- Slot 3 PARKED in cell 10. -/
def parked : State := own (put (up .run) 3 (slotAs .parked home)) 10 (.held 3)
theorem witness_MeasureJudged_ranges : (up .run).Takes 1 .metro .measure ∧ 24000 < 24001 ∧ 12000 < 12001 ∧ ¬ [10, 10].Nodup ∧
    2047 < 2048 ∧ [24000, 12000] = [(24000 : Theta).val, (12000 : Phi).val] ∧ [10, 11] = ([10, 11] : List CellId).map Fin.val :=
  ⟨takes_of (by decide +kernel), by decide, by decide, by decide, by decide, by decide, by decide⟩
theorem witness_MeasureJudged_states : ((up .run).slot 3).state = .absent ∧
    ((put (up .run) 3 (slotAs .retired home)).slot 3).state = .retired ∧
    ((put (up .run) 3 (slotAs .faulted home)).slot 3).state = .faulted ∧
    ((put (up .run) 3 (slotAs .moving home)).slot 3).state = .moving ∧
    ((claiming false).slot 0).state = .waiting ∧ (claiming false).claimPending 0 = true := by decide +kernel
theorem witness_MeasureJudged_conflict : (parked.slot 3).state = .parked ∧ parked.claimPending 3 = false ∧
    (14 : CellId) ∉ (parked.slot 3).patrol := by decide +kernel
theorem witness_MeasureJudged_taken : parked.Takes 1 .metro .measure ∧ ([10, 11] : List CellId).Nodup ∧
    (parked.slot 3).state = .parked ∧ (parked.inQueue 3 = true ↔ (parked.slot 3).state = .waiting) ∧ parked.claimPending 3 = false ∧
    parked.grantedSegs 3 = [] ∧ (10 ∈ (parked.slot 3).patrol ∧ (parked.cell 10).owner = .held 3) ∧
    (11 ∈ (parked.slot 3).patrol ∧ (parked.cell 11).owner = .free ∧ parked.shadowFromOthers 3 11 = 0) :=
  ⟨takes_of (by decide +kernel), by decide +kernel⟩

theorem witness_SetFootprintJudged_taken : parked.Takes 0 .plan .setFootprint ∧ ([10] : List CellId).Nodup ∧
    (parked.slot 3).stand.pos = some (5, 6) ∧ (parked.slot 3).state = .parked ∧ parked.claimPending 3 = false ∧
    (∀ c ∈ ([10] : List CellId), (parked.cell c).owner = .held 3) ∧
    (parked.inQueue 3 = true ↔ (parked.slot 3).state = .waiting) ∧ parked.grantedSegs 3 = [] ∧ (parked.cell 11).owner ≠ .held 3 :=
  ⟨takes_of (by decide +kernel), by decide +kernel⟩
theorem witness_SetFootprintJudged_states : ((put (up .run) 3 (slotAs .unknown .lost)).slot 3).state = .unknown ∧
    ((put (up .run) 3 (slotAs .unknown .lost)).slot 3).stand = .lost ∧ (claiming false).claimPending 0 = true ∧
    ((claiming false).slot 0).stand.pos = some (5, 6) ∧ ((claiming false).slot 0).state = .waiting := by decide +kernel

theorem witness_LoadTrimJudged : parked.Takes 1 .metro .loadTrim ∧ Descriptor.read { trimDescr with rate := 4 } = none ∧
    Descriptor.read descr = some (3, .move 2 3 1 [10, 11] [11]) ∧ SegBody.isTrim (.move 2 3 1 [10, 11] [11]) = false ∧
    Descriptor.read trimDescr = some (3, .trim 2 3 1 [10, 11] [11]) ∧ SegBody.isTrim (.trim 2 3 1 [10, 11] [11]) = true ∧
    parked.fixed = [] ∧ parked.border = [] :=
  ⟨takes_of (by decide +kernel), by decide, by decide, rfl, by decide, rfl, rfl, rfl⟩
theorem witness_LoadTrimJudged_chain : { parked with free := [1, 2] }.free = 1 :: [2] ∧ { parked with free := [] }.free = [] ∧
    (parked.slot 3).chain = [] ∧ (parked.slot 3).state = .parked ∧ parked.posKnown 3 = true ∧ parked.inQueue 3 = false ∧
    32 ≤ ((put parked 3 (chained .parked home (List.replicate 32 1))).slot 3).chain.length ∧
    ((put parked 3 (chained .parked home (List.replicate 31 1))).slot 3).chain.length < 32 := by decide +kernel
theorem witness_LoadTrimJudged_states : ((put (up .run) 3 (slotAs .unknown .lost)).slot 3).state = .unknown ∧
    ((put (up .run) 3 (slotAs .dwelling home)).slot 3).state = .dwelling ∧
    ((put (up .run) 3 (slotAs .stranded (.sweep 5 6 [10]))).slot 3).state = .stranded := by decide +kernel

/-- Slot 3 FAULTED with segment 0 CHAINED for it. -/
def mending : State := withSeg (put (up .hold) 3 (chained .faulted home [0])) 0 (moveSeg 3 .chained none)
theorem witness_ClearFaultJudged_joins : (mending.slot 3).state = .faulted ∧ mending.inQueue 3 = false ∧
    (mending.updSlot 3 fun sl => { sl with fault := none, state := sl.stand.rest }).eligible 3 = true ∧
    ((put (up .hold) 3 (slotAs .faulted home)).updSlot 3 fun sl => { sl with fault := none, state := sl.stand.rest }).eligible 3 =
      false := by decide +kernel

theorem witness_StreamPositionsJudged : (up .run).Ready 1 .metro ∧ (up .run).RolesDistinct ∧ State.reset.Ready 1 .metro ∧
    (up .run).sector ≠ .unconfigured ∧ (up .run).stream = none ∧ streaming.stream ≠ none ∧ (95 ≤ 95 ∧ 95 + 1 ≤ 96) ∧ 96 < 95 + 2 ∧
    (0 ≤ 95 ∧ 1 ≤ 96 ∧ 0 + 96 ≤ 96) :=
  ⟨ready_of (by decide +kernel), distinct_of (by decide +kernel), ready_of (by decide +kernel), by decide, rfl, by decide, by decide,
    by decide, by decide⟩
theorem witness_StreamArmAndStop : streaming.Takes 1 .metro .streamArm ∧ streaming.RolesDistinct ∧
    streaming.Takes 1 .metro .streamStop ∧ streaming.stream = some { first := 3, count := 2, sent := 0 } ∧
    (streaming.port 1).subscribed .streamEnd = true ∧ (streaming.port 1).notices.length < 32 :=
  ⟨takes_of (by decide +kernel), distinct_of (by decide +kernel), takes_of (by decide +kernel), rfl, by decide +kernel,
    by decide +kernel⟩

theorem witness_StreamArmAndStop_fires : { up .run with armed := some ⟨3, 2⟩ }.armed = some ⟨3, 2⟩ ∧
    { up .run with armed := some ⟨3, 2⟩ }.stream = none ∧ { streaming with armed := some ⟨3, 2⟩ }.stream ≠ none ∧
    (up .run).armed = none := by decide

/-- Slot 3 with present senses taken at 0. -/
def sensing : State := (up .run).updSense 3 fun r =>
  { r with present := some (⟨true, false, false⟩, 0), snapshot := some ⟨false, false, false⟩, watch := ⟨true, true, true⟩ }
theorem witness_SenseRequestsJudged : sensing.Takes 1 .metro .readSense ∧ sensing.Takes 1 .metro .clearChange ∧
    sensing.Takes 2 .service .setSenseWatch ∧ (sensing.sense 3).present = some (⟨true, false, false⟩, 0) ∧
    (sensing.sense 4).present = none ∧ (7 : Byte).toNat < 8 ∧ 8 ≤ (8 : Byte).toNat :=
  ⟨takes_of (by decide +kernel), takes_of (by decide +kernel), takes_of (by decide +kernel), by decide +kernel, by decide +kernel,
    by decide, by decide⟩

/-! ### Witnesses: branch lines -/

theorem witness_StatusTakesSenses : (calling flying (.entry (.status 0 .poll)) 2).resetHeld = false ∧
    ((calling flying (.entry (.status 0 .poll)) 2).branch 0).bus = some { call := .entry (.status 0 .poll), left := 2 } ∧
    ((calling (up .run) (.entry (.status 0 .idle)) 2).branch 0).bus = some { call := .entry (.status 0 .idle), left := 2 } := by
  decide +kernel
theorem witness_StatusTakesSenses_none : ∀ w l, ((up .run).branch 0).bus ≠ some { call := .entry (.status 0 w), left := l } := by
  intro w l h
  have : ((up .run).branch 0).bus = none := by decide +kernel
  rw [this] at h; cases h

/-- A status call of drop 0 on the bus, its order in flight. -/
def polling (w : Purpose) : State := calling flying (.entry (.status 0 w)) 2
theorem witness_StatusEndsOrder : ((polling .poll).branch 0).bus = some { call := .entry (.status 0 .poll), left := 2 } ∧
    Purpose.poll ≠ .idle ∧ ((polling .poll).branch 0).pollOf 0 = some (pollAs 0) ∧
    (polling .poll).seg (pollAs 0).seg = some (moveSeg 0 .active none) ∧ ((polling .poll).slot (slotOf 0 0)).state ≠ .faulted ∧
    (moveSeg 0 .active none).body = .move 2 3 1 [10, 11] [11] ∧ ((polling .poll).slot (slotOf 0 0)).stand.pos = some (5, 6) ∧
    movePos 5 6 2 3 = some (7, 9) ∧ (polling .poll).sector = .run := by decide +kernel
theorem witness_StatusEndsOrder_final : ((polling .final).branch 0).bus = some { call := .entry (.status 0 .final), left := 2 } ∧
    ((polling .final).branch 0).pollOf 0 = some (pollAs 0) := by decide +kernel
/-- A DATUM on both axes in flight for slot 0. -/
def datuming : State := withSeg (polling .poll) 0 { moveSeg 0 .active none with body := .datum .both 0 [10] [10] }
theorem witness_StatusEndsOrder_datum : datuming.seg 0 = some { moveSeg 0 .active none with body := .datum .both 0 [10] [10] } ∧
    (datuming.branch 0).pollOf 0 = some (pollAs 0) := by decide +kernel
theorem witness_StatusEndsOrder_counts : movePos 5 6 2 4 = some (7, 10) ∧ movePos 5 6 (-6) 3 = none ∧ (4 : Int) ≠ 3 ∧
    (-6 : Int) ≠ 2 := by decide
/-- A DATUM on one axis in flight for slot 0. -/
def datumingOn (a : Axis) : State := withSeg (polling .poll) 0 { moveSeg 0 .active none with body := .datum a 0 [10] [10] }
theorem witness_StatusEndsOrder_axis : (datumingOn .theta).seg 0 = some { moveSeg 0 .active none with body := .datum .theta 0 [10] [10] } ∧
    (datumingOn .phi).seg 0 = some { moveSeg 0 .active none with body := .datum .phi 0 [10] [10] } ∧
    ((datumingOn .theta).slot 0).stand.pos = some (5, 6) ∧ ((datumingOn .phi).branch 0).pollOf 0 = some (pollAs 0) := by decide +kernel
/-- As `datuming`, the robot lost. -/
def sweeping : State := datuming.updSlot 0 fun sl => { sl with stand := .lost }
theorem witness_StatusEndsOrder_lost : (sweeping.slot (slotOf 0 0)).stand = .lost ∧ (sweeping.slot (slotOf 0 0)).state ≠ .faulted ∧
    (sweeping.branch 0).pollOf 0 = some (pollAs 0) ∧
    sweeping.seg 0 = some { moveSeg 0 .active none with body := .datum .both 0 [10] [10] } := by decide +kernel
/-- Segment 0 of batch 5 in flight for slot 0; behind it 1 of that batch, 2 a trim, 3 a MOVE without batch. -/
def failing : State :=
  withSeg (withSeg (withSeg (withSeg ((polling .poll).updSlot 0 fun sl => { sl with chain := [0, 1, 2, 3] }) 0 (moveSeg 0 .active (some 5)))
    1 (moveSeg 0 .chained (some 5))) 2 { moveSeg 0 .chained none with body := .trim 1 1 0 [11] [11] }) 3 (moveSeg 0 .chained none)
theorem witness_StatusEndsOrder_skips : (failing.slot (slotOf 0 0)).chain = [0, 1, 2, 3] ∧ (1 : SegId) ≠ (pollAs 0).seg ∧
    failing.seg 1 = some (moveSeg 0 .chained (some 5)) ∧ failing.seg 0 = some (moveSeg 0 .active (some 5)) ∧
    failing.seg 2 = some { moveSeg 0 .chained none with body := .trim 1 1 0 [11] [11] } ∧
    failing.seg 3 = some (moveSeg 0 .chained none) ∧ (pollAs 0).haltMark = false ∧
    (moveSeg 0 .chained none).batch ≠ (moveSeg 0 .active (some 5)).batch := by decide +kernel
theorem witness_StatusEndsOrder_fails (x : Senses) : (moveSeg 0 .active (some 5)).body.FailsBy .poll ⟨.stopped, 0, 0, false, x⟩ ∧
    (moveSeg 0 .active (some 5)).body.FailsBy .poll ⟨.done, 2, 4, false, x⟩ ∧
    (SegBody.datum .both 0 [10] [10]).FailsBy .poll ⟨.done, 0, 0, false, x⟩ ∧
    (moveSeg 0 .active (some 5)).body.FailsBy .final ⟨.running, 0, 0, false, x⟩ ∧
    home.Interrupted true ⟨.stopped, 0, 0, false, ⟨false, false, false⟩⟩ ∧
    ¬ home.Interrupted true ⟨.stopped, -6, 0, false, ⟨false, false, false⟩⟩ :=
  ⟨trivial, Or.inr (show (4 : Int) ≠ 3 by decide), rfl, rfl, ⟨rfl, rfl, rfl, fun p h => by cases h; decide⟩, fun h => h.2.2.2 (5, 6) rfl (by decide)⟩
/-- As `polling`, with the halt mark. -/
def halted : State := (polling .poll).updBranch 0 fun br => { br with poll := [{ pollAs 0 with haltMark := true }] }
theorem witness_StatusEndsOrder_halt : (halted.branch 0).pollOf 0 = some { pollAs 0 with haltMark := true } := by decide +kernel

/-- The order of drop 0 on the bus, with the halting mark or without. -/
def ordering (halting : Bool) (left : Nat) : State :=
  (calling (withSeg (put (up .run) 0 (chained .moving home [0])) 0 (moveSeg 0 .active none)) (.entry (.order (orderOf 0 none)))
    left).updBranch 0 fun br => { br with halting := halting }
theorem witness_OrderReplies : (ordering false 2).resetHeld = false ∧
    ((ordering false 2).branch 0).bus = some { call := .entry (.order (orderOf 0 none)), left := 2 } ∧ (orderOf 0 none).drop = 0 ∧
    ((ordering false 2).branch 0).halting = false ∧ ((ordering false 0).branch 0).bus =
      some { call := .entry (.order (orderOf 0 none)), left := 0 } ∧
    (ordering false 0).seg (orderOf 0 none).seg = some (moveSeg 0 .active none) ∧
    ((ordering false 0).slot (slotOf 0 0)).state ≠ .faulted ∧ ((ordering true 2).branch 0).halting = true ∧
    ((ordering true 2).slot (slotOf 0 0)).stand.pos = some (5, 6) := by decide +kernel
/-- Slot 0 with segments 0 and 1 GRANTED, 1 of rate class `r`. -/
def pairing (r : Fin 4) : State :=
  withSeg (withSeg (put (up .run) 0 (chained .moving home [0, 1])) 0 (moveSeg 0 .granted none)) 1
    { moveSeg 0 .granted none with body := .trim 1 1 r [11] [11] }
theorem witness_OrderReplies_first : { orderOf 0 none with keep := none }.keep = none ∧
    (pairing 1).seg 0 = some (moveSeg 0 .granted none) ∧ (pairing 1).grantedSegs (slotOf 0 0) =
      [(0, moveSeg 0 .granted none), (1, { moveSeg 0 .granted none with body := .trim 1 1 1 [11] [11] })] ∧
    (moveSeg 0 .granted none).body.stepRate = some 1 ∧ (1 : SegId) ≠ 0 ∧ (pairing 2).grantedSegs (slotOf 0 0) =
      [(0, moveSeg 0 .granted none), (1, { moveSeg 0 .granted none with body := .trim 1 1 2 [11] [11] })] ∧
    SegBody.stepRate (.trim 1 1 2 [11] [11]) ≠ some 1 := by decide +kernel
theorem witness_OrderReplies_none : ∀ o l, ((up .run).branch 0).bus = some { call := .entry (.order o), left := l } → o.drop ≠ 3 := by
  intro o l h
  have : ((up .run).branch 0).bus = none := by decide +kernel
  rw [this] at h; cases h

theorem witness_ReplyWindowEnds_order : ((ordering false 0).branch 0).bus =
      some { call := .entry (.order (orderOf 0 none)), left := 0 } ∧
    ((ordering false 1).branch 0).bus = some { call := .entry (.order (orderOf 0 none)), left := 0 + 1 } ∧
    ((up .run).branch 0).bus = none ∧ ((calling (up .run) .halt 0).branch 0).bus = some { call := .halt, left := 0 } := by
  decide +kernel
theorem witness_ReplyWindowEnds_status : ((calling flying (.entry (.status 0 .final)) 0).branch 0).bus =
      some { call := .entry (.status 0 .final), left := 0 } ∧ Purpose.final ≠ .idle ∧
    ((calling flying (.entry (.status 0 .final)) 0).branch 0).pollOf 0 = some (pollAs 0) ∧
    (calling flying (.entry (.status 0 .final)) 0).seg 0 = some (moveSeg 0 .active none) ∧
    ((calling flying (.entry (.status 0 .final)) 0).slot (slotOf 0 0)).state ≠ .faulted := by decide +kernel
/-- An idle call of slot 0's drop, its last attempt. -/
def idling : State := calling (put (up .run) 0 (slotAs .parked home)) (.entry (.status 0 .idle)) 0
theorem witness_ReplyWindowEnds_idle : (idling.branch 0).bus = some { call := .entry (.status 0 .idle), left := 0 } ∧
    (idling.slot (slotOf 0 0)).state = .parked := by decide +kernel
/-- A direct frame to drop 1 of branch 0, SERVICE waiting for its answer. -/
def directing : State :=
  (calling (onBranch (up .run) 0 fun br => { br with access := .taken }) (.entry (.direct 1 [7])) 0).updPort 2 fun q =>
    { q with busy := true, inHand := some ⟨29, 6⟩ }
theorem witness_ReplyWindowEnds_direct : (directing.branch 0).bus = some { call := .entry (.direct 1 [7]), left := 0 } ∧
    directing.RolesDistinct ∧ (directing.port 2).role = some .service ∧ (directing.port 2).inHand = some ⟨29, 6⟩ :=
  ⟨by decide +kernel, distinct_of (by decide +kernel), by decide +kernel, by decide +kernel⟩

/-- A roll call of drop 0 of branch 0 in a SERVICE census. -/
def rolling (st : SlotState) : State :=
  { calling (put (up .hold) 0 { slotAs st .lost with populated := false }) (.entry (.roll 0)) 2 with census := .service }
theorem witness_ReplyWindowEnds_roll :
    ((calling (put (up .hold) 0 (slotAs .parked home)) (.entry (.roll 0)) 0).branch 0).bus =
      some { call := .entry (.roll 0), left := 0 } ∧
    ((put (up .hold) 0 (slotAs .parked home)).slot (slotOf 0 0)).state = .parked ∧ (up .hold).resetHeld = false ∧
    (up .hold).phase ≠ .halt ∧ (up .hold).census ≠ .service ∧ ((up .hold).slot (slotOf 0 0)).state = .absent ∧
    (rolling .unknown).census = .service := by decide +kernel
theorem witness_ReplyWindowEnds_census :
    ((calling { idling with census := .service } (.entry (.roll 0)) 0).branch 0).bus = some { call := .entry (.roll 0), left := 0 } ∧
    (calling { idling with census := .service } (.entry (.roll 0)) 0).census = .service ∧
    ((calling { idling with census := .service } (.entry (.roll 0)) 0).slot (slotOf 0 0)).state = .parked := by decide +kernel
theorem witness_ReplyWindowEnds_halt : ((calling (up .run) .halt 0).branch 0).haltPlace = false ∧
    ((onBranch (calling (up .run) .halt 0) 0 fun br => { br with haltPlace := true }).branch 0).haltPlace = true ∧
    ((onBranch (calling (up .run) .halt 0) 0 fun br => { br with haltPlace := true }).branch 0).bus =
      some { call := .halt, left := 0 } := by decide +kernel
theorem witness_RollReported : (rolling .absent).resetHeld = false ∧ (rolling .absent).phase ≠ .halt ∧
    ((rolling .absent).branch 0).bus = some { call := .entry (.roll 0), left := 2 } ∧
    ((rolling .absent).slot (slotOf 0 0)).state = .absent ∧ ((rolling .absent).slot (slotOf 0 0)).chain = [] ∧
    (rolling .absent).inQueue (slotOf 0 0) = false ∧ ((rolling .unknown).slot (slotOf 0 0)).state ≠ .absent := by decide +kernel
theorem witness_RollReported_none : ∀ l, ((up .run).branch 0).bus ≠ some { call := .entry (.roll 0), left := l } := by
  intro l h
  have : ((up .run).branch 0).bus = none := by decide +kernel
  rw [this] at h; cases h

theorem witness_DiscardedFrames : State.reset.phase = .load ∧
    ((claiming false).link 2).neighbour = some 5 ∧ (5 : SectorId) ≠ 6 ∧ ((up .run).link 0).neighbour = none ∧
    (0 : SectorId) = (up .run).sectorId ∧ ([] : List Nat).length = 0 ∧ 32 < (List.replicate 33 1).length ∧ 256 < (List.replicate 257 1).length ∧
    (((up .run).updPort 0 fun q => { q with role := none }).port 0).role = none ∧
    requestOf (.hold 0 5) = some (0, .hold, 5) ∧ readyB (up .run) 0 .plan = true := by decide +kernel

/-- Drop 0 of branch 0 settling since 0. -/
def settling : State := onBranch (up .run) 0 fun br =>
  { br with drops := br.drops.set 0 { energized := false, lastDone := some 0, settling := true, idleTime := some 5, idleDue := false } }
theorem witness_TimersEnd_drop : settling.resetHeld = false ∧ ((settling.branch 0).drops.get 0).settling = true ∧
    ((settling.branch 0).drops.get 0).lastDone = some 0 ∧ ((settling.branch 0).drops.get 0).idleTime = some 5 ∧
    ((settling.branch 0).drops.get 0).idleDue = false ∧ (((up .run).branch 0).drops.get 0).settling = false := by decide +kernel
theorem witness_TimersEnd_wait : orderOf 0 (some 9) ∈ ((onBranch (up .run) 0 fun br =>
      { br with backlog := [orderOf 0 (some 9)] }).branch 0).orders ∧ (orderOf 0 (some 9)).drop = 0 ∧
    (orderOf 0 (some 9)).wait = some 9 := by decide +kernel
theorem witness_TimersEnd_poll : (flying.branch 0).pollOf 0 = some (pollAs 0) ∧ (pollAs 0).due = false ∧
    (pollAs 0).finalMark = false ∧ flying.seg (pollAs 0).seg = some (moveSeg 0 .active none) ∧ flying.resetHeld = false ∧
    ((up .run).branch 0).pollOf 0 = none := by decide +kernel
/-- Slot 0 DWELLING under segment 0 until 900. -/
def dwelling : State :=
  { withSeg (put (up .run) 0 (chained .dwelling home [0])) 0 { moveSeg 0 .active none with body := .dwell 1 } with
    dwell := (up .run).dwell.set 0 (some 900) }
theorem witness_TimersEnd_dwell : dwelling.resetHeld = false ∧ dwelling.dwell.get 0 = some 900 ∧
    dwelling.activeDwell 0 = some (0, { moveSeg 0 .active none with body := .dwell 1 }) ∧ (up .run).dwell.get 0 = none := by
  decide +kernel
/-- Slot 0's entry in backoff until 900. -/
def backing : State := { waiting with queue := [{ QEntry.fresh 0 with backoff := some 900 }] }
theorem witness_TimersEnd_backoff : backing.resetHeld = false ∧
    backing.entry 0 = some { QEntry.fresh 0 with backoff := some 900 } ∧ (up .run).entry 0 = none := by decide +kernel

theorem witness_TakeAndGiveBranch : (up .run).Takes 2 .service .takeBranch ∧ (up .run).Takes 2 .service .giveBranch ∧
    (up .run).RolesDistinct ∧ ((up .run).branch 3).access = .own ∧ (up .run).census ≠ .service ∧ (up .run).phase = .done ∧
    ((up .run).branch 3).poll = [] ∧ ((up .run).branch 3).queue = [] ∧ ((up .run).branch 3).backlog = [] ∧
    ((up .run).branch 3).bus = none ∧ ((up .run).branch 3).haltPlace = false ∧ ((up .run).branch 3).direct = none ∧
    ((up .run).branch 3).rollsLeft = [] ∧ (flying.branch 0).poll ≠ [] ∧ State.reset.phase ≠ .done ∧ 3 < 4 :=
  ⟨takes_of (by decide +kernel), takes_of (by decide +kernel), distinct_of (by decide +kernel), by decide +kernel⟩
/-- Branch 3 TAKEN. -/
def taken : State := onBranch (up .run) 3 fun br => { br with access := .taken }
theorem witness_TakeAndGiveBranch_taken : taken.Takes 2 .service .giveBranch ∧ (taken.branch 3).access = .taken ∧
    (taken.branch 3).access ≠ .own ∧ ((up .run).branch 3).access ≠ .taken := ⟨takes_of (by decide +kernel), by decide +kernel⟩

theorem witness_DirectFrameAndCensus_direct : taken.Takes 2 .service .directFrame ∧ (taken.branch 3).access = .taken ∧
    3 = (3 : BranchId).val ∧ 23 = (23 : DropId).val ∧ 1 ≤ [(7 : Byte)].length ∧ (List.replicate 32 (7 : Byte)).length ≤ 32 ∧
    23 < 24 ∧ ([] : List Byte).length < 1 ∧ 32 < (List.replicate 33 (7 : Byte)).length := ⟨takes_of (by decide +kernel), by decide +kernel⟩
theorem witness_DirectFrameAndCensus_census : (up .hold).Takes 2 .service .census ∧
    (∀ n, ((up .hold).slot n).state ≠ .moving ∧ ((up .hold).slot n).state ≠ .dwelling) ∧
    (∀ b, ((up .hold).branch b).access = .own) ∧ (up .hold).census = .none ∧ (up .hold).phase = .done ∧
    (flying.slot 0).state = .moving ∧ (taken.branch 3).access ≠ .own ∧ State.reset.phase ≠ .done :=
  ⟨takes_of (by decide +kernel), by decide +kernel⟩

/-! ### Witnesses: grants, links, store -/

theorem witness_ScanGrantsHead : waiting.resetHeld = false ∧ waiting.scanDue = true ∧ waiting.sector = .run ∧
    waiting.queue = .fresh 0 :: [] ∧ waiting.firstUngranted 0 = some (0, moveSeg 0 .chained none) ∧
    (waiting.branch (branchOf 0)).access = .own ∧ (QEntry.fresh 0).pendingClaim = false ∧ (QEntry.fresh 0).backoff = none ∧
    waiting.eligible 0 = true ∧ waiting.endInRange 0 (moveSeg 0 .chained none) = true ∧
    (∀ c ∈ waiting.sweepOf 0 (moveSeg 0 .chained none),
      ((waiting.cell c).owner = .free ∨ (waiting.cell c).owner = .held 0) ∧ waiting.shadowFromOthers 0 c = 0) ∧
    waiting.grantedSegs 0 = [] ∧ (up .run).scanDue = false := by decide +kernel
theorem witness_ScanGrantsHead_sound : QueueSound waiting.queue := ⟨by decide, by decide⟩
/-- As `waiting`, cell 11 with its home across link 2 and AWAY. -/
def asking : State :=
  { own waiting 11 (.away 2) with border := [{ cell := 11, link := 2, theirs := 20, home := .remote }] }
theorem witness_ScanGrantsHead_claim : asking.scanDue = true ∧ asking.sector = .run ∧ asking.queue = .fresh 0 :: [] ∧
    asking.firstUngranted 0 = some (0, moveSeg 0 .chained none) ∧ asking.eligible 0 = true ∧
    asking.endInRange 0 (moveSeg 0 .chained none) = true ∧
    (∀ c ∈ asking.sweepOf 0 (moveSeg 0 .chained none), ((asking.cell c).owner = .free ∨ (asking.cell c).owner = .held 0 ∨
      (asking.cell c).owner = .away 2) ∧ asking.shadowFromOthers 0 c = 0) ∧
    (∃ c ∈ asking.sweepOf 0 (moveSeg 0 .chained none), (asking.cell c).owner = .away 2) ∧ (asking.link 2).claim = none :=
  ⟨rfl, rfl, rfl, by decide +kernel, by decide +kernel, by decide +kernel, by decide +kernel, ⟨11, by decide +kernel⟩, rfl⟩
/-- Slot 0 WAITING behind cell 10, HELD of slot 9, with a count; behind it slot 1 WAITING for a MOVE over `sweep`. -/
def queueing (count : Nat) (sweep : List CellId) : State :=
  { withSeg (withSeg (own (put (put (up .run) 0 (chained .waiting home [0])) 1 (chained .waiting (.footprint 5 6 [20]) [1])) 10 (.held 9))
      0 (moveSeg 0 .chained none)) 1 { moveSeg 1 .chained none with body := .move 2 3 1 sweep sweep } with
    queue := [{ QEntry.fresh 0 with passOver := count }, .fresh 1], scanDue := true }
theorem witness_ScanGrantsHead_passed : (queueing 7 [20]).scanDue = true ∧ (queueing 7 [20]).queue =
      { QEntry.fresh 0 with passOver := 7 } :: .fresh 1 :: [] ∧
    (queueing 7 [20]).firstUngranted 0 = some (0, moveSeg 0 .chained none) ∧
    (queueing 7 [20]).firstUngranted 1 = some (1, { moveSeg 1 .chained none with body := .move 2 3 1 [20] [20] }) ∧
    (queueing 7 [20]).eligible 0 = true ∧ (queueing 7 [20]).eligible 1 = true ∧
    (queueing 7 [20]).endInRange 0 (moveSeg 0 .chained none) = true ∧
    (queueing 7 [20]).endInRange 1 { moveSeg 1 .chained none with body := .move 2 3 1 [20] [20] } = true ∧
    10 ∈ (queueing 7 [20]).sweepOf 0 (moveSeg 0 .chained none) ∧ ((queueing 7 [20]).cell 10).owner = .held 9 ∧
    ((queueing 7 [20]).cell 11).owner = .free ∧ ((queueing 7 [20]).cell 20).owner = .free ∧
    (queueing 7 [20]).shadowFromOthers 1 20 = 0 := by decide +kernel
theorem witness_ScanGrantsHead_barred : (queueing 8 [11]).queue = { QEntry.fresh 0 with passOver := 8 } :: .fresh 1 :: [] ∧
    11 ∈ (queueing 8 [11]).sweepOf 0 (moveSeg 0 .chained none) ∧ (queueing 8 [11]).sweepOf 1
      { moveSeg 1 .chained none with body := .move 2 3 1 [11] [11] } = [11] := by decide +kernel
theorem test_scan_barrier : runs .scan (queueing 7 [20]) (fun t => decide (t.queue.map QEntry.passOver = [8])) = true ∧
    runs .scan (queueing 8 [11]) (fun t => decide (t.queue.map QEntry.slot = [0, 1])) = true := by decide +kernel
theorem witness_ScanKeepsHeldCells_step : agreeing.Ledger ∧ StoreSound agreeing.store.image ∧ agreeing.FieldSound ∧
    (agreeing.cell 10).shadow = 1 ∧ ∃ t, step agreeing = .next t :=
  ⟨agreeing_ledger, storeSound_blank, agreeing_field, by decide +kernel, _, agreeing_step⟩
theorem witness_ScanKeepsHeldCells : (∃ t, exec .scan waiting = .next t) ∧ (waiting.cell 10).owner = .held 0 := by
  refine ⟨?_, by decide +kernel⟩
  show ∃ t, execScan waiting = .next t
  unfold execScan
  split <;> exact ⟨_, rfl⟩

/-- Cells 30 and 31 are shared on link 1, this sector their home, under the neighbour's numbers 40 and 41. -/
def bordering : State :=
  { up .run with border := [{ cell := 30, link := 1, theirs := 40, home := .here }, { cell := 31, link := 1, theirs := 41, home := .here }] }
theorem witness_ClaimAnswered : bordering.resetHeld = false ∧ bordering.phase ≠ .load ∧ bordering.accepts 1 7 false = true ∧
    [30, 31].Nodup ∧ bordering.cellOn 1 30 = some 30 ∧
    bordering.borderOf 30 = some { cell := 30, link := 1, theirs := 40, home := .here } ∧ bordering.cellOn 1 31 = some 31 ∧
    bordering.borderOf 31 = some { cell := 31, link := 1, theirs := 41, home := .here } ∧
    (bordering.cell 30).owner = .free ∧ (bordering.cell 30).shadow = 0 ∧ (bordering.cell 31).owner = .free ∧
    (bordering.cell 31).shadow = 0 := by decide +kernel
theorem witness_ClaimAnswered_refused : ¬ [30, 30].Nodup ∧ ((own bordering 30 (.blocked 1)).cell 30).owner = .blocked 1 ∧
    (own bordering 30 (.blocked 1)).cellOn 1 30 = some 30 ∧ ((own bordering 30 (.held 0)).cell 30).owner ≠ .free ∧
    ((own bordering 30 (.held 0)).cell 30).owner ≠ .blocked 1 ∧ bordering.cellOn 1 99 = none := by decide +kernel

theorem witness_GrantAnswered_taken : (claiming false).resetHeld = false ∧ (claiming false).phase ≠ .load ∧
    (claiming false).accepts 2 5 false = true ∧ ((claiming false).link 2).claim = some (claimAs false) ∧ (claimAs false).number = 4 ∧
    (claimAs false).withdrawn = false ∧
    (claiming false).firstUngranted (claimAs false).slot = some ((claimAs false).seg, moveSeg 0 .chained none) ∧
    (claiming false).sector = .run ∧
    ∀ y ∈ (claiming false).sweepOf 0 (moveSeg 0 .chained none), (claiming false).claimPasses 2 (claimAs false) y = true := by
  decide +kernel
theorem witness_GrantAnswered_released : ((claiming true).link 2).claim = some (claimAs true) ∧ (claimAs true).withdrawn = true ∧
    (claiming true).accepts 2 5 false = true ∧ { claiming false with sector := .hold }.sector ≠ .run ∧
    (claimAs true).number ≠ 5 := by decide +kernel
theorem witness_GrantAnswered_failing : 10 ∈ (own (claiming false) 10 .free).sweepOf 0 (moveSeg 0 .chained none) ∧
    (own (claiming false) 10 .free).claimPasses 2 (claimAs false) 10 = false ∧
    (withSeg (claiming false) 0 (moveSeg 0 .granted none)).firstUngranted 0 = none := by decide +kernel

theorem witness_RefuseAndRelease : ((claiming false).link 2).claim = some (claimAs false) ∧ (claiming false).accepts 2 5 false = true ∧
    (claiming false).phase ≠ .load ∧ (claimAs false).number = 4 ∧ (claimAs false).number ≠ 5 ∧
    bordering.accepts 1 7 false = true ∧ 1 ≤ [30].length ∧ (List.replicate 256 30).length ≤ 256 := by decide +kernel

/-- Slot 3 RETIRED in cell 11, AWAY across link 2. -/
def retiring : State :=
  { asking with retired := asking.retired.set 3 (some { theta := 5, phi := 6, cells := [11] }) }
theorem witness_SyncAnsweredAndApplied_retired : (retiring.cell 11).owner = .away 2 ∧ retiring.InRetired 11 3 ∧
    (retiring.link 2).claim = none ∧ 11 ∈ retiring.cellsOn 2 [11] := by
  refine ⟨by decide +kernel, ⟨⟨{ theta := 5, phi := 6, cells := [11] }, by decide +kernel, by decide⟩, fun m e hm he => ?_⟩,
    by decide +kernel, by decide +kernel⟩
  have h : ∀ m, m < 3 → retiring.retired.get m = none := by decide +kernel
  rw [h m hm] at he; cases he
theorem witness_SyncAnsweredAndApplied : bordering.resetHeld = false ∧ bordering.phase ≠ .load ∧
    bordering.accepts 1 7 false = true ∧ (List.replicate 256 30).length ≤ 256 ∧
    (bordering.link 1).claim = none ∧ ((claiming false).link 2).claim = some (claimAs false) := by decide +kernel

/-- Link 2 owes a sync, its timer running to 50. -/
def syncing (st : LinkState) : State := (up .hold).updLink 2 fun l => { l with syncTimer := some 50, syncOwed := true, state := st, timeouts := 2 }
theorem witness_LinkTimersEnd : ((claiming false).link 2).claim = some (claimAs false) ∧ ((claiming false).link 2).state ≠ .down ∧
    ((up .run).link 2).claim = none ∧ ((syncing .up).link 2).syncTimer = some 50 ∧ ((syncing .up).link 2).syncOwed = true ∧
    ((syncing .down).link 2).state = .down ∧ ((up .run).link 2).syncTimer = none := by decide +kernel

theorem witness_ReclaimJudged : (syncing .down).Takes 2 .service .reclaimBorder ∧ 2 = (2 : LinkId).val ∧
    ((syncing .down).link 2).state = .down ∧ ((syncing .up).link 2).state ≠ .down ∧ 3 < 4 :=
  ⟨takes_of (by decide +kernel), by decide +kernel⟩

theorem witness_StoreWritten : (up .hold).Takes 2 .service .writeStore ∧ (up .hold).Takes 2 .service .storeRetired ∧
    State.reset.Takes 2 .service .storeRetired ∧ ([1, 2, 3, 4] : List CellId).Nodup ∧ 4 ≤ ([1, 2, 3, 4] : List CellId).length ∧
    ([1, 2, 3, 4] : List CellId).length ≤ 24 ∧
    (∀ c ∈ ([1, 2, 3, 4] : List CellId), membership ((up .hold).store.image.patrol.set 95 (some [1, 2, 3, 4])) c ≤ 7) ∧
    ((List.finRange 128).map (Fin.castLE (by decide : 128 ≤ 2048))).length ≤ 128 ∧ (up .hold).sector ≠ .unconfigured :=
  ⟨takes_of (by decide +kernel), takes_of (by decide +kernel), takes_of (by decide +kernel), by decide, by decide, by decide,
    by decide +kernel, by simp, by decide⟩
theorem witness_StoreWritten_border : ∀ j f, j ≠ (255 : Fin 256) → (up .hold).store.image.border.get j = some f →
    f.cell ≠ 2047 ∧ ¬ (f.link = 3 ∧ f.theirs = 2047) := by
  intro j f _ h
  have : ∀ j, (up .hold).store.image.border.get j = none := by decide +kernel
  rw [this j] at h; cases h

/-- A store whose border table holds an entry at place 0, and cell 9 in the patrol sets of slots 0 to 6. -/
def storing : State :=
  { up .hold with store :=
    { image := { Image.blank with
        border := Image.blank.border.set 0 (some { cell := 9, link := 1, theirs := 8, home := .here })
        patrol := ⟨List.replicate 7 (some [9, 1, 2, 3]) ++ List.replicate 89 none, rfl⟩ }
      check := 0 } }
theorem witness_WriteStoreRefuses : storing.Takes 2 .service .writeStore ∧ 63 < 64 ∧ 128 < (List.replicate 129 1).length ∧
    ¬ [1, 1].Nodup ∧ 2047 < 2048 ∧ [1, 2, 3].length < 4 ∧ 24 < (List.replicate 25 1).length ∧ 255 < 256 ∧ 24000 < 24001 ∧
    12000 < 12001 ∧ 8 < (List.replicate 9 1).length :=
  ⟨takes_of (by decide +kernel), by decide +kernel⟩
theorem witness_WriteStoreRefuses_member : (9 : CellId) ∈ ([9, 1, 2, 4] : List CellId) ∧
    7 < membership (storing.store.image.patrol.set 8 (some [9, 1, 2, 4])) 9 := by decide +kernel
theorem witness_WriteStoreRefuses_clash : (0 : Fin 256) ≠ 5 ∧
    storing.store.image.border.get 0 = some { cell := 9, link := 1, theirs := 8, home := .here } := by decide +kernel

theorem witness_SetTimebaseJudged : (up .hold).Ready 0 .plan ∧ Role.plan ≠ .metro ∧ (up .hold).sector ≠ .unconfigured ∧ 9 < 10 ∧
    2000 < 2001 ∧ (10 ≤ 10 ∧ 10 ≤ 2000) ∧ (10 ≤ 2000 ∧ 2000 ≤ 2000) ∧ (up .hold).timebase = some 100 ∧
    { up .hold with timebase := none }.timebase = none ∧ State.reset.Ready 0 .plan ∧ State.reset.sector = .unconfigured :=
  ⟨ready_of (by decide +kernel), by decide, by decide, by decide, by decide, by decide, by decide, rfl, rfl,
    ready_of (by decide +kernel), rfl⟩

theorem witness_FramesReadBack : 2 ≤ exampleBody.length ∧ exampleBody.length + 2 ≤ LineKind.maxLength .port ∧
    ([3] : List CellId).length ≤ 32 ∧ (List.replicate 256 (3 : CellId)).length ≤ 256 := by decide +kernel
theorem witness_DescriptorRanges : descr.slot ≤ 95 ∧ descr.kind = 1 ∧ Descriptor.read { descr with dTheta := 24000, dPhi := -12000 } =
      some (3, .move 24000 (-12000) 1 [10, 11] [11]) ∧ Descriptor.read { descr with dTheta := 24001 } = none ∧
    Descriptor.read { trimDescr with dTheta := -255 } = some (3, .trim (-255) 3 1 [10, 11] [11]) ∧
    Descriptor.read { trimDescr with dPhi := 256 } = none ∧ Descriptor.read { descr with kind := 4, duration := 60001 } = none ∧
    Descriptor.read { descr with kind := 3, axis := 4 } = none ∧ Descriptor.read { descr with ends := [12] } = none := by decide

/-! ### One step of a command -/

/-- The last answer made on a port. -/
def lastResult (t : State) (p : PortId) : Option Result := (t.lined p).getLast?.map (·.result)

theorem test_resume : runs (.resume 0 5) (up .hold) (fun t => decide (t.sector = .run) && t.scanDue) = true := by decide +kernel
theorem test_resume_stop_line : runs (.resume 0 5) { up .hold with stopLine := true }
    (fun t => decide (lastResult t 0 = some .stopActive) && decide (t.sector = .hold)) = true := by decide +kernel
theorem test_open_batch : runs (.openBatch 0 5 6) (up .hold)
    (fun t => decide (t.batches.get 0 = some (batchAs 6 .opened 0 0 []))) = true := by decide +kernel
theorem test_open_batch_twice : runs (.openBatch 0 5 6) staged
    (fun t => t.loadError && (t.batches.get 0).isNone && (t.seg 0).isNone && decide (t.free = [0, 1, 2, 3])) = true := by
  decide +kernel
theorem test_load_segment : runs (.loadSegment 0 5 descr) staged
    (fun t => decide (t.free = [2, 3]) && decide (t.seg 1 = some (moveSeg 3 .staged (some 5))) &&
      decide (t.batches.get 0 = some (batchAs 5 .opened 2 0 [0, 1]))) = true := by decide +kernel
theorem test_load_segment_absent : runs (.loadSegment 0 5 { descr with slot := 4 }) staged
    (fun t => decide (lastResult t 0 = some .absent)) = true := by decide +kernel
theorem test_query_cell : runs (.queryCell 2 5 2048) State.reset (fun t => decide (lastResult t 2 = some .badArg)) = true := by
  decide +kernel
theorem test_role : runs (.queryCell 0 5 0) State.reset (fun t => decide (lastResult t 0 = some .role)) = true := by decide +kernel
theorem test_unconfigured : runs (.setTimebase 0 5 100) State.reset (fun t => decide (lastResult t 0 = some .unconfigured)) = true := by
  decide +kernel
theorem test_set_timebase : runs (.setTimebase 0 5 2000) { up .hold with timebase := none }
    (fun t => decide (t.timebase = some 2000)) = true := by decide +kernel
theorem test_port_busy : runs (.hold 0 5) busy (fun t => decide (lastResult t 0 = some .portBusy) && decide (t.sector = .run)) = true := by
  decide +kernel
theorem test_unknown_item : runs (.badRequestFrame 2 (.unknownItem 5)) (up .hold)
    (fun t => decide (lastResult t 2 = some .badArg)) = true ∧
    runs (.badRequestFrame 0 (.unknownItem 5)) (up .hold) (fun t => decide (lastResult t 0 = some .role)) = true := by decide +kernel
theorem test_wrong_form : runs (.badRequestFrame 0 (.wrongForm 99 5)) (up .hold)
    (fun t => decide (lastResult t 0 = some .badArg)) = true := by decide +kernel
theorem test_frame_sent : runs (.portFrameSent 0) (lining (up .run) 0 held [] [told] .notice)
    (fun t => !(t.port 0).busy && decide ((t.port 0).sending = some (.notice told))) = true := by decide +kernel
theorem test_record_sent : runs (.portFrameSent 1) (lining streaming 1 held [] [told] .notice)
    (fun t => decide (t.stream = some { first := 3, count := 2, sent := 1 })) = true := by decide +kernel
theorem test_reset_sector : runs (.portFrameSent 2) resetting (fun t => decide (t.sector = .unconfigured) && decide (t.phase = .load)) =
    true := by decide +kernel
theorem test_subscribe : runs (.subscribe 0 5 0xFF) (up .hold) (fun t => decide ((t.port 0).subs = 0xFF)) = true := by decide +kernel
theorem test_retire : runs (.retire 0 5 3) parked
    (fun t => decide ((t.slot 3).state = .retired) && decide (t.retired.get 3 = some { theta := 5, phi := 6, cells := [10] })) = true := by
  decide +kernel
theorem test_retire_unknown : runs (.retire 0 5 3) (put (up .hold) 3 (slotAs .unknown .lost))
    (fun t => decide (lastResult t 0 = some .state)) = true := by decide +kernel
theorem test_clear_fault : runs (.clearFault 2 5 3) (put (up .hold) 3 { slotAs .faulted .lost with fault := some .noReply })
    (fun t => decide (t.slot 3 = slotAs .unknown .lost)) = true := by decide +kernel
theorem test_read_sense : runs (.readSense 1 5 3) sensing
    (fun t => decide ((t.sense 3).snapshot = some ⟨true, false, false⟩)) = true := by decide +kernel
theorem test_set_sense_watch : runs (.setSenseWatch 1 5 3 8) sensing (fun t => decide (lastResult t 1 = some .badArg)) = true := by
  decide +kernel
theorem test_stream_positions : runs (.streamPositions 1 5 95 2) (up .hold) (fun t => decide (lastResult t 1 = some .badArg)) = true := by
  decide +kernel
theorem test_stream_stop : runs (.streamStop 1 5) streaming (fun t => decide (t.stream = none)) = true := by decide +kernel
theorem test_load_trim : runs (.loadTrim 1 5 trimDescr) { parked with free := [1] }
    (fun t => decide ((t.slot 3).state = .waiting) && decide (t.queue = [.fresh 3]) && t.scanDue) = true := by decide +kernel
theorem test_measure : runs (.measure 1 5 3 24000 12000 [10, 11]) parked
    (fun t => decide ((t.slot 3).stand = .footprint 24000 12000 [10, 11]) && decide ((t.cell 11).owner = .held 3)) = true := by
  decide +kernel
theorem test_set_footprint : runs (.setFootprint 1 5 3 [11]) parked (fun t => decide (lastResult t 1 = some .notSubset)) = true := by
  decide +kernel
theorem test_take_branch : runs (.takeBranch 2 5 3) (up .run) (fun t => decide ((t.branch 3).access = .taken)) = true := by decide +kernel
theorem test_direct_frame : runs (.directFrame 2 5 3 23 [1, 2]) taken
    (fun t => decide ((t.branch 3).bus = some { call := .entry (.direct 23 [1, 2]), left := 0 })) = true := by decide +kernel
theorem test_write_sector_id : runs (.writeStoreSectorId 2 5 63) State.reset (fun t => decide (t.store.image.sectorId = 63)) = true := by
  decide +kernel
theorem test_write_patrol_set : runs (.writeStorePatrolSet 2 5 0 [1, 2, 3]) State.reset
    (fun t => decide (lastResult t 2 = some .badArg)) = true := by decide +kernel
theorem test_write_border_entry : runs (.writeStoreBorderEntry 2 5 255 (some ⟨1, 3, 2, 1⟩)) State.reset
    (fun t => decide (t.store.image.border.get 255 = some { cell := 1, link := 3, theirs := 2, home := .remote })) = true := by
  decide +kernel
theorem test_settle_end : runs (.settleEnd 0 0) settling
    (fun t => !((t.branch 0).drops.get 0).settling && decide (t.now = 40000)) = true := by decide +kernel
theorem test_stall_limit : runs (.stallLimit 0 0) flying
    (fun t => decide (t.now = 101200) && decide ((t.branch 0).bus = some { call := .entry (.status 0 .final), left := 2 })) = true := by
  decide +kernel
theorem test_backoff_end : runs (.backoffEnd 0) backing (fun t => decide (t.queue = [.fresh 0]) && decide (t.now = 900)) = true := by
  decide +kernel
theorem test_status_done : runs (.status 0 0 ⟨.done, 2, 3, false, ⟨false, false, false⟩⟩) (polling .poll)
    (fun t => decide ((t.slot 0).state = .parked) && decide ((t.slot 0).stand = .footprint 7 9 [11]) &&
      decide ((t.cell 10).owner = .free) && decide ((t.cell 11).owner = .held 0)) = true := by decide +kernel
theorem test_scan : runs .scan waiting
    (fun t => decide ((t.slot 0).state = .moving) && decide ((t.cell 11).owner = .held 0) && decide (t.queue = [])) = true := by
  decide +kernel
theorem test_claim : runs (.claim 1 7 9 [30, 31]) bordering
    (fun t => decide ((t.cell 31).owner = .lent 1) && decide ((t.link 1).sent = [(0, .grant 9)])) = true := by decide +kernel
theorem test_grant : runs (.grant 2 5 4) (claiming false)
    (fun t => decide ((t.cell 11).owner = .held 0) && decide ((t.slot 0).state = .moving)) = true := by decide +kernel
theorem test_reset_line : runs .resetLineAssert (up .run) (fun t => t.resetHeld) = true := by decide +kernel

end Sys2Proof.Tests
end

section
/-! SUPPORT. Facts that the statements about the cell map share: a request that its rule answers at once, and what an event
leaves of the state beside ports, stream and batches. -/

namespace Sys2Proof.Machine

/-! ### Requests answered at once -/

theorem inRange_val {n : Nat} (k : Fin n) : inRange n k.val = some k := by simp [inRange]
theorem inRange_eq_none {n k : Nat} (h : n ≤ k) : inRange n k = none := by simp [inRange, h]

/-- A request that the master list allows the SERVICE port reaches its owning rule, in UNCONFIGURED too (R172). -/
theorem State.Ready.takes_service {s : State} {p : PortId} {c : ReqCode} (h : s.Ready p .service) (hc : c.allowed .service = true) :
    s.Takes p .service c :=
  { h with allowed := hc, configured := fun _ => .inl rfl }

/-- A rule that answers and leaves the state as it is. -/
theorem State.Takes.completes_same {s : State} {p : PortId} {r : Role} {c : ReqCode} (hT : s.Takes p r c) (seq : Nat)
    (rule : State → Reply) {res : Result} {f : AnswerFields}
    (hr : rule (s.takeInHand p c.number seq) = { state := s.takeInHand p c.number seq, answer := some (res, f) }) :
    s.Completes (s.request p c seq rule) p (c.answer seq res f) s :=
  (State.request_completes hT seq rule hr fun _ => Port.Carries.refl _).congr (State.apart_takeInHand _ _ _)

/-! ### The ends of batches and the ports -/

theorem State.fireArm_eq (s : State) : ∃ st a, s.fireArm = { s with stream := st, armed := a } := by
  unfold State.fireArm
  split <;> exact ⟨_, _, rfl⟩

/-- The ends of batches touch batches, ports, stream and armed range alone (R60, R62, R145). -/
theorem State.endBatches_eq (s : State) :
    ∃ b e p st a, s.endBatches = { s with batches := b, endCount := e, ports := p, stream := st, armed := a } := by
  unfold State.endBatches
  refine foldl_keeps (P := fun t => ∃ b e p st a, t = { s with batches := b, endCount := e, ports := p, stream := st, armed := a })
    ?_ ⟨_, _, _, _, _, rfl⟩
  rintro _ b ⟨_, _, _, _, _, rfl⟩
  obtain ⟨_, _, h⟩ := State.fireArm_eq _
  exact ⟨_, _, _, _, _, h⟩

/-- States that agree apart from the send sides differ in ports and stream alone. -/
theorem State.eq_of_apart {s t : State} (h : t.apart = s.apart) : t = { s with ports := t.ports, stream := t.stream } := by
  cases s
  cases t
  simp only [State.apart, State.mk.injEq] at h ⊢
  tauto

theorem State.beginFrame_eq (s : State) (p : PortId) : ∃ ps st, s.beginFrame p = { s with ports := ps, stream := st } :=
  ⟨_, _, State.eq_of_apart (State.beginFrame_apart p)⟩
theorem State.kickPorts_eq (s : State) : ∃ ps st, s.kickPorts = { s with ports := ps, stream := st } :=
  ⟨_, _, State.eq_of_apart State.kickPorts_apart⟩

end Sys2Proof.Machine
end

section
/-! SUPPORT. QUERY_CELL (R43) and RECLAIM_BORDER (R40, R132). -/

namespace Sys2Proof.Machine

theorem queryCellRule_badArg {s : State} {cell : Nat} (h : 2047 < cell) : queryCellRule cell s = s.reply .badArg := by
  simp [queryCellRule, inRange_eq_none (n := 2048) h]

theorem queryCellRule_val (s : State) (c : CellId) :
    queryCellRule c.val s =
      s.replyWith (.cell { owner := (s.cell c).owner, shadow := (s.cell c).shadow, fixed := decide (c ∈ s.fixed),
                           border := s.borderOf c.val }) := by
  simp only [queryCellRule, inRange_val]

/-- Settles O27: the rule answers by its operand's range and touches nothing. -/
theorem queryCellAnswers : Obligations.QueryCellAnswers := by
  intro s p seq cell hR
  have hT : s.Takes p .service .queryCell := hR.takes_service rfl
  refine ⟨fun h => ⟨_, rfl, hT.completes_same seq _ (queryCellRule_badArg h)⟩, ?_⟩
  rintro c rfl
  exact ⟨_, rfl, hT.completes_same seq _ (queryCellRule_val _ c)⟩

theorem reclaimBorderRule_badArg {s : State} {link : Nat} (h : 3 < link) : reclaimBorderRule link s = s.reply .badArg := by
  simp [reclaimBorderRule, inRange_eq_none (n := 4) h]

theorem reclaimBorderRule_linkUp {s : State} {k : LinkId} (h : (s.link k).state ≠ .down) :
    reclaimBorderRule k.val s = s.reply .linkUp := by
  simp only [reclaimBorderRule, inRange_val, h, if_false]

/-- The cell map and the link of a reclaimed border, with the scan the event starts in RUN (R40, R42, R132). -/
def State.reclaim (s : State) (k : LinkId) : State :=
  ((s.updCells fun _ r => { r with owner := r.owner.reclaimed k }).updLink k fun l => { l with neighbour := none }).causeScan

theorem reclaimBorderRule_down {s : State} {k : LinkId} (h : (s.link k).state = .down) :
    reclaimBorderRule k.val s = (s.reclaim k).reply .ok := by
  simp only [reclaimBorderRule, inRange_val, h, if_true, State.reclaim]

theorem State.cell_reclaim (s : State) (k : LinkId) (c : CellId) :
    (s.reclaim k).cell c =
      if (s.cell c).owner = .blocked k ∨ (s.cell c).owner = .lent k then { s.cell c with owner := .free }
      else if (s.cell c).owner = .orphan k then { s.cell c with owner := .away k }
      else s.cell c := by
  have hc : (s.reclaim k).cell c = { s.cell c with owner := (s.cell c).owner.reclaimed k } := State.cell_updCells s _ c
  rw [hc]
  rcases s.cell c with ⟨o, sh⟩
  cases o
  case lent j => by_cases hj : j = k <;> simp [Owner.reclaimed, hj]
  case blocked j => by_cases hj : j = k <;> simp [Owner.reclaimed, hj]
  case orphan j => by_cases hj : j = k <;> simp [Owner.reclaimed, hj]
  all_goals simp [Owner.reclaimed]

/-- Settles O56: the rule's three outcomes, by the link's number and state. -/
theorem reclaimJudged : Obligations.ReclaimJudged := by
  intro s p seq link hT
  refine ⟨fun h => ⟨_, rfl, hT.completes_same seq _ (reclaimBorderRule_badArg h)⟩, ?_⟩
  rintro k rfl
  refine ⟨fun h => ⟨_, rfl, hT.completes_same seq _ (reclaimBorderRule_linkUp h)⟩, fun h => ?_⟩
  exact ⟨_, s.reclaim k, rfl,
    (State.request_completes hT seq _ (reclaimBorderRule_down h) fun _ => Port.Carries.refl _).congr rfl, rfl,
    State.cell_reclaim s k⟩

end Sys2Proof.Machine
end

section
/-! SUPPORT. FIXED cells (R25): once FIXED, a cell stays so through every change that a `Steady` property admits; the commands
that write a setting without a reset touch no cell, or stop the sector. -/

namespace Sys2Proof.Machine

/-- A FIXED cell stays FIXED through every change but a reset (R25). -/
theorem steady_fixed (x : CellId) : Steady fun s => (s.cell x).owner = .fixed where
  seg _ _ _ h := h
  free _ h := h
  scanDue _ h := h
  haltOut _ h := h
  branches _ _ h := h
  census _ h := h
  links _ _ h := h
  phase _ h := h
  sector _ _ _ h := h
  raise _ h := h
  answer _ _ _ h := h
  updSlot _ _ _ h := h
  updCells hf h := by rw [State.cell_updCells]; exact hf _ _ h
  takeCells n l hl h := by
    have hx : x ∉ l := fun hx => hl x hx h
    simp only [State.takeCells, State.cell_updCells, named_iff, hx, if_false, h]
  close _ h := h
  queue _ _ h := h
  joinQueue _ _ h := h
  dwell _ h := h
  startStop _ h := h
  anyBranch _ _ h := h
  anyLink _ _ h := h
  now _ h := h
  enter _ _ _ h := h
  count _ _ h := h
  endBatches {s} h := by
    obtain ⟨_, _, _, _, _, e⟩ := s.endBatches_eq
    rw [e]; exact h
  moveStand n st h := (State.moveStand_owner n st x).trans h
  fault _ _ h := h
  grant _ h := h
  anySlot _ _ _ h := h
  pool _ h := h
  senses _ h := h
  batches _ h := h
  loadError _ h := h
  retired _ h := h
  stream _ h := h
  armed _ h := h
  takeInHand _ _ _ h := h
  refuseBusy _ _ _ h := h
  subscribe _ _ h := h
  beginFrame {s} p h := by
    obtain ⟨_, _, e⟩ := s.beginFrame_eq p
    rw [e]; exact h
  lend k l hl h := by
    have hx : x ∉ l := fun hx => hl x hx h
    simp only [State.lend, State.cell_updCells, named_iff, hx, if_false, h]
  lineFree _ _ h := h

/-! ### The rules that write a setting touch no record of the part but the store and the timebase -/

/-- The state after a rule differs in the store and the timebase alone. -/
def WritesOnly (rule : State → Reply) : Prop := ∀ s, ∃ st tb, (rule s).state = { s with store := st, timebase := tb }

theorem writesOnly_storeRetired : WritesOnly storeRetiredRule := by
  intro s
  unfold storeRetiredRule
  split <;> exact ⟨_, _, rfl⟩
theorem writesOnly_setTimebase (us : Nat) : WritesOnly (setTimebaseRule us) := by
  intro s
  unfold setTimebaseRule
  repeat' split
  all_goals exact ⟨_, _, rfl⟩
theorem writesOnly_sectorId (id : Nat) : WritesOnly (writeSectorIdRule id) := by
  intro s
  unfold writeSectorIdRule
  split <;> exact ⟨_, _, rfl⟩
theorem writesOnly_fixedList (l : List Nat) : WritesOnly (writeFixedListRule l) := by
  intro s
  unfold writeFixedListRule
  split <;> exact ⟨_, _, rfl⟩
theorem writesOnly_patrolSet (n : Nat) (l : List Nat) : WritesOnly (writePatrolSetRule n l) := by
  intro s
  unfold writePatrolSetRule
  dsimp only
  repeat' split
  all_goals exact ⟨_, _, rfl⟩
theorem writesOnly_borderEntry (n : Nat) (e : Option RawBorder) : WritesOnly (writeBorderEntryRule n e) := by
  intro s
  unfold writeBorderEntryRule
  repeat' split
  all_goals exact ⟨_, _, rfl⟩
theorem writesOnly_retiredEntry (n : Nat) (e : Option RawRetired) : WritesOnly (writeRetiredEntryRule n e) := by
  intro s
  unfold writeRetiredEntryRule
  repeat' split
  all_goals exact ⟨_, _, rfl⟩
theorem writesOnly_clear : WritesOnly writeClearRule := fun _ => ⟨_, _, rfl⟩

/-- A request whose rule writes store and timebase alone keeps a FIXED cell. -/
theorem fixed_of_writesOnly {x : CellId} {s : State} (h : (s.cell x).owner = .fixed) (p : PortId) (c : ReqCode) (seq : Nat)
    {rule : State → Reply} (hw : WritesOnly rule) : ((s.request p c seq rule).cell x).owner = .fixed :=
  (steady_fixed x).request h p c seq rule fun {s} h => by
    obtain ⟨_, _, e⟩ := hw s
    rw [e]; exact h

/-- A command that writes a setting without a reset keeps a FIXED cell. -/
theorem fixed_of_writesSetting {x : CellId} {c : Instr} {s : State} (hw : writesSetting c = true) (hc : mayReset c = false)
    (h : (s.cell x).owner = .fixed) : ∃ t, exec c s = .next t ∧ (t.cell x).owner = .fixed := by
  cases c <;> try exact (Bool.false_ne_true hw).elim
  case storeRetired p seq => exact ⟨_, rfl, fixed_of_writesOnly h p _ seq writesOnly_storeRetired⟩
  case setTimebase p seq us => exact ⟨_, rfl, fixed_of_writesOnly h p _ seq (writesOnly_setTimebase us)⟩
  case writeStoreSectorId p seq id => exact ⟨_, rfl, fixed_of_writesOnly h p _ seq (writesOnly_sectorId id)⟩
  case writeStoreFixedList p seq l => exact ⟨_, rfl, fixed_of_writesOnly h p _ seq (writesOnly_fixedList l)⟩
  case writeStorePatrolSet p seq n l => exact ⟨_, rfl, fixed_of_writesOnly h p _ seq (writesOnly_patrolSet n l)⟩
  case writeStoreBorderEntry p seq n e => exact ⟨_, rfl, fixed_of_writesOnly h p _ seq (writesOnly_borderEntry n e)⟩
  case writeStoreRetiredEntry p seq n e => exact ⟨_, rfl, fixed_of_writesOnly h p _ seq (writesOnly_retiredEntry n e)⟩
  case writeStoreClear p seq => exact ⟨_, rfl, fixed_of_writesOnly h p _ seq writesOnly_clear⟩
  case stopLineAssert =>
    exact ⟨_, rfl, (steady_fixed x).event (s := { s with stopLine := true }) h _ fun h =>
      (steady_fixed x).finish ((steady_fixed x).takeStop h) _⟩
  case stopLineRelease => exact ⟨_, rfl, h⟩
  case resetLineAssert => exact ⟨_, rfl, h⟩
  case powerOn => exact (Bool.false_ne_true hc.symm).elim
  case resetLineRelease => exact (Bool.false_ne_true hc.symm).elim
  case portFrameSent => exact (Bool.false_ne_true hc.symm).elim

/-- Settles O6: by `steady_fixed`, and for the commands that write a setting by what they touch. -/
theorem fixedCellsKept : Obligations.FixedCellsKept := by
  intro c s t x hc ht h
  obtain ⟨u, hu, hx⟩ : ∃ u, exec c s = .next u ∧ (u.cell x).owner = .fixed := by
    cases hw : writesSetting c with
    | false => exact Steady.exec (steady_fixed x) c hw h
    | true => exact fixed_of_writesSetting hw hc h
  rw [hu] at ht
  cases ht
  exact hx

end Sys2Proof.Machine
end


section
/-! SUPPORT. Slots and shadows in agreement (R24, R29): what each shared operation of an event does to it. `State.Field` carries the
agreement through the middle of an event, with the slots that work and the step orders that wait for them. -/

namespace Sys2Proof.Machine

/-! ### Counting the records of a table -/

/-- A count over a table whose record `i` changes, by what the record counts before and after. -/
theorem Table.countP_upd {n : Nat} {α : Type} (t : Table n α) (i : Fin n) (f : α → α) (p : α → Bool) :
    (t.upd i f).items.countP p + (if p (t.get i) then 1 else 0) = t.items.countP p + if p (f (t.get i)) then 1 else 0 := by
  have hi : i.val < t.items.length := by rw [t.size]; exact i.isLt
  have hpos : p (t.get i) = true → 0 < t.items.countP p :=
    fun h => List.countP_pos_iff.2 ⟨_, List.getElem_mem hi, h⟩
  have hset := List.countP_set (p := p) (a := f (t.get i)) hi
  show ((t.items.set i.val (f (t.get i))).countP p + _) = _
  rw [hset]
  show t.items.countP p - (if p (t.get i) then 1 else 0) + _ + _ = _
  split
  · rename_i h
    have := hpos h
    omega
  · omega

theorem Table.countP_upd_same {n : Nat} {α : Type} (t : Table n α) (i : Fin n) (f : α → α) (p : α → Bool)
    (h : p (f (t.get i)) = p (t.get i)) : (t.upd i f).items.countP p = t.items.countP p := by
  have := Table.countP_upd t i f p
  rw [h] at this
  omega

/-! ### Slots that work -/

/-- A slot that is neither ABSENT nor RETIRED. -/
def Slot.Live (sl : Slot) : Prop := sl.state ≠ .absent ∧ sl.state ≠ .retired

/-- `b` is the slot record `a` after a change that leaves the shadow it casts, whether it works, and no segment in the chain of
a slot that does not. -/
structure Slot.Like (a b : Slot) : Prop where
  populated : b.populated = a.populated
  known : b.stand.known = a.stand.known
  patrol : b.patrol = a.patrol
  absent : b.state = .absent ↔ a.state = .absent
  retired : b.state = .retired ↔ a.state = .retired
  chain : ¬ a.Live → a.chain = [] → b.chain = []

theorem Slot.Like.refl (a : Slot) : a.Like a := ⟨rfl, rfl, rfl, .rfl, .rfl, fun _ h => h⟩

theorem Slot.Like.live {a b : Slot} (h : a.Like b) : b.Live ↔ a.Live := and_congr (not_congr h.absent) (not_congr h.retired)

theorem Slot.Like.casts {a b : Slot} (h : a.Like b) (c : CellId) : b.casts c = a.casts c := by
  simp only [Slot.casts, h.populated, h.known, h.patrol, h.retired, ne_eq]

/-- A working slot that goes on working with another state, fault code and chain. -/
theorem Slot.Like.work {a : Slot} (ha : a.Live) {st : SlotState} (h0 : st ≠ .absent) (h1 : st ≠ .retired) (x : Option FaultCode)
    (l : List SegId) : a.Like { a with state := st, fault := x, chain := l } where
  populated := rfl
  known := rfl
  patrol := rfl
  absent := ⟨fun h => absurd h h0, fun h => absurd h ha.1⟩
  retired := ⟨fun h => absurd h h1, fun h => absurd h ha.2⟩
  chain h := absurd ha h

/-- A slot whose state alone changes, and not to or from ABSENT or RETIRED. -/
theorem Slot.Like.state {a : Slot} {st : SlotState} (h0 : st = .absent ↔ a.state = .absent) (h1 : st = .retired ↔ a.state = .retired) :
    a.Like { a with state := st } := ⟨rfl, rfl, rfl, h0, h1, fun _ h => h⟩

/-- A slot whose chain loses segments. -/
theorem Slot.Like.leave (a : Slot) (p : SegId → Bool) : a.Like { a with chain := a.chain.filter p } :=
  ⟨rfl, rfl, rfl, .rfl, .rfl, fun _ e => by show a.chain.filter p = []; rw [e]; rfl⟩

theorem Stand.rest_ne_absent (st : Stand) : st.rest ≠ .absent := by cases st <;> simp [Stand.rest]
theorem Stand.rest_ne_retired (st : Stand) : st.rest ≠ .retired := by cases st <;> simp [Stand.rest]
theorem Stand.known_eq_false {st : Stand} : st.known = false ↔ st = .lost := by cases st <;> simp [Stand.known]

/-- The resting state of a slot, in the queue or not. -/
theorem restOrWait_live (b : Bool) (st : Stand) :
    (if b then SlotState.waiting else st.rest) ≠ .absent ∧ (if b then SlotState.waiting else st.rest) ≠ .retired := by
  cases b
  · exact ⟨st.rest_ne_absent, st.rest_ne_retired⟩
  · exact ⟨by simp, by simp⟩

theorem SegBody.workState_live (b : SegBody) : b.workState ≠ .absent ∧ b.workState ≠ .retired := by
  cases b <;> simp [SegBody.workState]

/-! ### The agreement of slots and shadows -/

section FieldSound
variable {s : State} (h : s.FieldSound)
include h

/-- What the agreement reads: the slots, the shadows, and the slots of the segments. -/
theorem State.FieldSound.of_same {t : State} (hs : t.slots = s.slots) (hc : ∀ c, (t.cell c).shadow = (s.cell c).shadow)
    (hp : ∀ id g, t.seg id = some g → ∃ x, s.seg id = some x ∧ x.slot = g.slot) : t.FieldSound := by
  have hsl : ∀ n, t.slot n = s.slot n := fun n => by simp only [State.slot, hs]
  refine ⟨fun c => by rw [hc, hs]; exact h.shadow c, by rw [hs]; exact h.patrols, fun n => by rw [hsl]; exact h.absent n,
    fun n => by rw [hsl]; exact h.present n, fun n => by rw [hsl]; exact h.retired n, fun id g hg => ?_⟩
  obtain ⟨x, hx, e⟩ := hp id g hg
  rw [hsl, ← e]
  exact h.segments id x hx

/-- The records other than slots, cells and segments are not read. -/
theorem State.FieldSound.elsewhere {t : State} (hs : t.slots = s.slots) (hc : t.cells = s.cells) (hp : t.pool = s.pool) :
    t.FieldSound :=
  h.of_same hs (fun c => by simp only [State.cell, hc]) fun id g e => ⟨g, by simpa only [State.seg, hp] using e, rfl⟩

theorem State.FieldSound.live_of_chain {n : SlotId} (hn : (s.slot n).chain ≠ []) : (s.slot n).Live :=
  ⟨fun e => hn (h.absent n e).2.2, fun e => hn (h.retired n e).2⟩

theorem State.FieldSound.updSlot (n : SlotId) {f : Slot → Slot} (hf : (s.slot n).Like (f (s.slot n))) :
    (s.updSlot n f).FieldSound := by
  have hall : ∀ m, (s.slot m).Like ((s.updSlot n f).slot m) := by
    intro m
    by_cases e : n = m
    · subst e; rw [State.slot_updSlot_self]; exact hf
    · rw [State.slot_updSlot_ne _ _ e]; exact Slot.Like.refl _
  refine ⟨fun c => ?_, fun c => ?_, fun m hm => ?_, fun m hm => ?_, fun m hm => ?_, fun id g hg => ?_⟩
  · rw [State.updSlot, Table.countP_upd_same _ _ _ _ (hf.casts c)]
    exact h.shadow c
  · rw [State.updSlot, Table.countP_upd_same _ _ _ _ (by rw [show (f (s.slots.get n)).patrol = _ from hf.patrol]; rfl)]
    exact h.patrols c
  · obtain ⟨h1, h2, h3⟩ := h.absent m ((hall m).absent.1 hm)
    refine ⟨(hall m).populated.trans h1, Stand.known_eq_false.1 ((hall m).known.trans (Stand.known_eq_false.2 h2)), ?_⟩
    exact (hall m).chain (fun hl => hl.1 ((hall m).absent.1 hm)) h3
  · exact (hall m).populated.trans (h.present m fun e => hm ((hall m).absent.2 e))
  · obtain ⟨h1, h2⟩ := h.retired m ((hall m).retired.1 hm)
    exact ⟨(hall m).known.trans h1, (hall m).chain (fun hl => hl.2 ((hall m).retired.1 hm)) h2⟩
  · exact fun e => h.segments id g hg ((hall g.slot).absent.1 e)

/-- Slot `n` comes to stand, or to work, otherwise, and every shadow follows (R29). -/
theorem State.FieldSound.recast (n : SlotId) (f : Slot → Slot) {t : State} (ht : t.slots = s.slots.upd n f) (hp : t.pool = s.pool)
    (hpatrol : (f (s.slot n)).patrol = (s.slot n).patrol) (hlive : (f (s.slot n)).Live) (hpop : (f (s.slot n)).populated = true)
    (hc : ∀ c, (t.cell c).shadow + (if (s.slot n).casts c then 1 else 0) =
      (s.cell c).shadow + if (f (s.slot n)).casts c then 1 else 0) : t.FieldSound := by
  have hself : t.slot n = f (s.slot n) := by simp only [State.slot, ht, Table.get_upd_self]
  have hne : ∀ m, n ≠ m → t.slot m = s.slot m := fun m e => by simp only [State.slot, ht, Table.get_upd_ne _ _ e]
  have key : ∀ m, m ≠ n ∧ t.slot m = s.slot m ∨ m = n ∧ (t.slot m).Live ∧ (t.slot m).populated = true := by
    intro m
    by_cases e : n = m
    · subst e; exact .inr ⟨rfl, by rw [hself]; exact hlive, by rw [hself]; exact hpop⟩
    · exact .inl ⟨Ne.symm e, hne m e⟩
  refine ⟨fun c => ?_, fun c => ?_, fun m hm => ?_, fun m hm => ?_, fun m hm => ?_, fun id g hg hm => ?_⟩
  · have h1 : _ + (if (s.slot n).casts c then 1 else 0) = _ + if (f (s.slot n)).casts c then 1 else 0 :=
      Table.countP_upd s.slots n f (Slot.casts c)
    have h2 := hc c
    have h3 := h.shadow c
    rw [ht]
    omega
  · rw [ht, Table.countP_upd_same _ _ _ _ (by rw [show (f (s.slots.get n)).patrol = _ from hpatrol]; rfl)]
    exact h.patrols c
  · obtain ⟨-, e⟩ | ⟨-, hl, -⟩ := key m
    · rw [e] at hm ⊢; exact h.absent m hm
    · exact absurd hm hl.1
  · obtain ⟨-, e⟩ | ⟨-, -, hl⟩ := key m
    · rw [e] at hm ⊢; exact h.present m hm
    · exact hl
  · obtain ⟨-, e⟩ | ⟨-, hl, -⟩ := key m
    · rw [e] at hm ⊢; exact h.retired m hm
    · exact absurd hm hl.2
  · simp only [State.seg, hp] at hg
    obtain ⟨-, e⟩ | ⟨-, hl, -⟩ := key g.slot
    · rw [e] at hm; exact h.segments id g hg hm
    · exact hl.1 hm

end FieldSound

theorem quiet_fieldSound : Quiet State.FieldSound where
  seg id _ hf h := by
    refine h.of_same rfl (fun _ => rfl) fun i g hg => ?_
    by_cases e : id = i
    · subst e
      rw [State.seg_updSeg_self, Option.map_eq_some_iff] at hg
      obtain ⟨x, hx, rfl⟩ := hg
      exact ⟨x, hx, (hf.slot x).symm⟩
    · rw [State.seg_updSeg_ne _ _ e] at hg
      exact ⟨g, hg, rfl⟩
  free _ h := h.elsewhere rfl rfl rfl
  scanDue _ h := h.elsewhere rfl rfl rfl
  haltOut _ h := h.elsewhere rfl rfl rfl
  branches _ _ h := h.elsewhere rfl rfl rfl
  census _ h := h.elsewhere rfl rfl rfl
  links _ _ h := h.elsewhere rfl rfl rfl
  phase _ h := h.elsewhere rfl rfl rfl
  sector _ _ _ h := h.elsewhere rfl rfl rfl
  raise _ h := h.elsewhere rfl rfl rfl
  answer _ _ _ h := h.elsewhere rfl rfl rfl

/-! ### The middle of an event -/

/-- Slots and shadows agree, the working slots are those of `L`, and the step orders that wait are for such slots. -/
structure State.Field (L : SlotId → Prop) (s : State) : Prop where
  sound : s.FieldSound
  live : ∀ n, (s.slot n).Live ↔ L n
  orders : ∀ b, ∀ o ∈ (s.branch b).orders, L (slotOf b o.drop)

theorem quiet_field (L : SlotId → Prop) : Quiet (State.Field L) where
  seg id _ hf h := ⟨quiet_fieldSound.seg id hf h.sound, h.live, h.orders⟩
  free x h := ⟨quiet_fieldSound.free x h.sound, h.live, h.orders⟩
  scanDue x h := ⟨quiet_fieldSound.scanDue x h.sound, h.live, h.orders⟩
  haltOut x h := ⟨quiet_fieldSound.haltOut x h.sound, h.live, h.orders⟩
  branches x hx h := ⟨quiet_fieldSound.branches x hx h.sound, h.live, fun b o ho => h.orders b o ((hx b).orders o ho)⟩
  census x h := ⟨quiet_fieldSound.census x h.sound, h.live, h.orders⟩
  links x hx h := ⟨quiet_fieldSound.links x hx h.sound, h.live, h.orders⟩
  phase x h := ⟨quiet_fieldSound.phase x h.sound, h.live, h.orders⟩
  sector x h0 h1 h := ⟨quiet_fieldSound.sector x h0 h1 h.sound, h.live, h.orders⟩
  raise nt h := ⟨quiet_fieldSound.raise nt h.sound, h.live, h.orders⟩
  answer p r f h := ⟨quiet_fieldSound.answer p r f h.sound, h.live, h.orders⟩

theorem slotOf_branchOf (n : SlotId) : slotOf (branchOf n) (dropOf n) = n := by
  apply Fin.ext
  simp only [slotOf, branchOf, dropOf]
  omega

theorem State.mem_chainSegs {s : State} {n : SlotId} {x : SegId × Segment} (hx : x ∈ s.chainSegs n) :
    x.1 ∈ (s.slot n).chain ∧ s.seg x.1 = some x.2 := by
  simp only [State.chainSegs, List.mem_filterMap, Option.map_eq_some_iff] at hx
  obtain ⟨id, hid, g, hg, rfl⟩ := hx
  exact ⟨hid, hg⟩

theorem State.mem_grantedSegs {s : State} {n : SlotId} {x : SegId × Segment} (hx : x ∈ s.grantedSegs n) :
    x.1 ∈ (s.slot n).chain ∧ s.seg x.1 = some x.2 := State.mem_chainSegs (List.mem_filter.1 hx).1

theorem State.firstUngranted_mem {s : State} {n : SlotId} {x : SegId × Segment} (hx : s.firstUngranted n = some x) :
    x.1 ∈ (s.slot n).chain ∧ s.seg x.1 = some x.2 := State.mem_chainSegs (List.mem_of_find?_eq_some hx)

theorem State.activeDwell_mem {s : State} {n : SlotId} {x : SegId × Segment} (hx : s.activeDwell n = some x) :
    x.1 ∈ (s.slot n).chain ∧ s.seg x.1 = some x.2 := State.mem_grantedSegs (List.mem_of_find?_eq_some hx)

section Field
variable {L : SlotId → Prop} {s : State} (h : s.Field L)
include h

theorem State.Field.elsewhere {t : State} (hs : t.slots = s.slots) (hc : t.cells = s.cells) (hp : t.pool = s.pool)
    (hb : t.branches = s.branches) : t.Field L :=
  ⟨h.sound.elsewhere hs hc hp, fun n => by simp only [State.slot, hs]; exact h.live n,
    fun b => by simp only [State.branch, hb]; exact h.orders b⟩

theorem State.Field.queue (x : List QEntry) : State.Field L { s with queue := x } := h.elsewhere rfl rfl rfl rfl
theorem State.Field.dwell (x : Table 96 (Option Nat)) : State.Field L { s with dwell := x } := h.elsewhere rfl rfl rfl rfl
theorem State.Field.sector (x : SectorState) : State.Field L { s with sector := x } := h.elsewhere rfl rfl rfl rfl
theorem State.Field.haltOut (x : List BranchId) : State.Field L { s with haltOut := x } := h.elsewhere rfl rfl rfl rfl
theorem State.Field.startStop (x : Bool) : State.Field L { s with startStop := x } := h.elsewhere rfl rfl rfl rfl
theorem State.Field.scanDue (x : Bool) : State.Field L { s with scanDue := x } := h.elsewhere rfl rfl rfl rfl
theorem State.Field.clockTo (x : Nat) : (s.clockTo x).Field L := h.elsewhere rfl rfl rfl rfl

/-- A slot with a segment in its chain works. -/
theorem State.Field.of_chain {n : SlotId} {id : SegId} (hid : id ∈ (s.slot n).chain) : L n :=
  (h.live n).1 (h.sound.live_of_chain (List.ne_nil_of_mem hid))

theorem State.Field.updSlot (n : SlotId) {f : Slot → Slot} (hf : (s.slot n).Like (f (s.slot n))) : (s.updSlot n f).Field L := by
  refine ⟨h.sound.updSlot n hf, fun m => ?_, h.orders⟩
  by_cases e : n = m
  · subst e; rw [State.slot_updSlot_self, hf.live]; exact h.live _
  · rw [State.slot_updSlot_ne _ _ e]; exact h.live m

theorem State.Field.updCells {f : Nat → Cell → Cell} (hf : ∀ i r, (f i r).shadow = r.shadow) : (s.updCells f).Field L :=
  ⟨h.sound.of_same rfl (fun c => by rw [State.cell_updCells, hf]) fun _ g hg => ⟨g, hg, rfl⟩, h.live, h.orders⟩

theorem State.Field.updBranch (b : BranchId) {f : Branch → Branch}
    (hf : ∀ o ∈ (f (s.branch b)).orders, o ∈ (s.branch b).orders ∨ L (slotOf b o.drop)) : (s.updBranch b f).Field L := by
  refine ⟨h.sound.elsewhere rfl rfl rfl, h.live, fun c o ho => ?_⟩
  by_cases e : b = c
  · subst e
    rw [State.branch_updBranch_self] at ho
    exact (hf o ho).elim (h.orders b o) id
  · rw [State.branch_updBranch_ne _ _ e] at ho
    exact h.orders c o ho

theorem State.Field.updSeg (id : SegId) {f : Segment → Segment} (hf : ∀ g, (f g).slot = g.slot) : (s.updSeg id f).Field L := by
  refine ⟨h.sound.of_same rfl (fun _ => rfl) fun i g hg => ?_, h.live, h.orders⟩
  by_cases e : id = i
  · subst e
    rw [State.seg_updSeg_self, Option.map_eq_some_iff] at hg
    obtain ⟨x, hx, rfl⟩ := hg
    exact ⟨x, hx, (hf x).symm⟩
  · rw [State.seg_updSeg_ne _ _ e] at hg
    exact ⟨g, hg, rfl⟩

/-- A record becomes FREE. -/
theorem State.Field.close (id : SegId) : State.Field L { s with pool := s.pool.set id none } := by
  refine ⟨h.sound.of_same rfl (fun _ => rfl) fun i g hg => ⟨g, ?_, rfl⟩, h.live, h.orders⟩
  simp only [State.seg, Table.get_set] at hg
  split at hg
  · cases hg
  · exact hg

/-! ### Cells and stands -/

theorem State.Field.takeCells (n : SlotId) (l : List CellId) : (s.takeCells n l).Field L :=
  h.updCells fun i r => by split <;> rfl
theorem State.Field.holdOnly (n : SlotId) (l : List CellId) : (s.holdOnly n l).Field L :=
  h.updCells fun i r => by split <;> rfl
theorem State.Field.rehold (n : SlotId) : (s.rehold n).Field L := h.holdOnly n _
theorem State.Field.freePending (n : SlotId) : (s.freePending n).Field L := h.updCells fun i r => by split <;> rfl
theorem State.Field.lend (k : LinkId) (l : List CellId) : (s.lend k l).Field L := h.updCells fun i r => by split <;> rfl

omit h in
theorem Cell.shadow_dropOrphan (r : Cell) : r.dropOrphan.shadow = r.shadow := by
  unfold Cell.dropOrphan
  split
  · split <;> rfl
  · rfl

theorem State.Field.dropOrphans : s.dropOrphans.Field L := h.updCells fun _ r => r.shadow_dropOrphan
theorem State.Field.settleCells (n : SlotId) : (s.settleCells n).Field L := (h.rehold n).dropOrphans

omit h in
/-- The shadow a slot casts on a cell once its robot stands elsewhere (R29). -/
theorem State.shadow_moveStand (s : State) (n : SlotId) (st : Stand) (c : CellId) :
    ((s.moveStand n st).cell c).shadow =
      if c ∈ (s.slot n).patrol ∧ s.posKnown n = true ∧ st.known = false then (s.cell c).shadow + 1
      else if c ∈ (s.slot n).patrol ∧ s.posKnown n = false ∧ st.known = true then (s.cell c).shadow - 1
      else (s.cell c).shadow := by
  show (State.cell (if s.posKnown n && !st.known then s.castShadow n
    else if !s.posKnown n && st.known then s.liftShadow n else s) c).shadow = _
  by_cases hp : c ∈ (s.slot n).patrol <;> cases s.posKnown n <;> cases st.known <;>
    simp [State.castShadow, State.liftShadow, named_iff, hp]

omit h in
theorem State.slots_moveStand (s : State) (n : SlotId) (st : Stand) :
    (s.moveStand n st).slots = s.slots.upd n fun sl => { sl with stand := st } := by
  unfold State.moveStand
  dsimp only
  split
  · rfl
  · split <;> rfl

omit h in
theorem State.pool_moveStand (s : State) (n : SlotId) (st : Stand) : (s.moveStand n st).pool = s.pool := by
  unfold State.moveStand
  dsimp only
  split
  · rfl
  · split <;> rfl

omit h in
theorem State.branches_moveStand (s : State) (n : SlotId) (st : Stand) : (s.moveStand n st).branches = s.branches := by
  unfold State.moveStand
  dsimp only
  split
  · rfl
  · split <;> rfl

theorem State.Field.moveStand {n : SlotId} (hn : L n) (st : Stand) : (s.moveStand n st).Field L := by
  have hl := (h.live n).2 hn
  have hpop := h.sound.present n hl.1
  refine ⟨h.sound.recast n (fun sl => { sl with stand := st }) (State.slots_moveStand s n st) (State.pool_moveStand s n st) rfl
    hl hpop fun c => ?_, fun m => ?_, by simp only [State.branch, State.branches_moveStand]; exact h.orders⟩
  · have hpos : (s.slot n).casts c = true → 0 < (s.cell c).shadow := by
      intro hc
      rw [h.sound.shadow c]
      exact List.countP_pos_iff.2 ⟨_, List.getElem_mem _, hc⟩
    rw [State.shadow_moveStand]
    simp only [Slot.casts, hpop, hl.2, State.posKnown, ne_eq, not_false_eq_true, decide_true, Bool.true_and,
      Bool.and_eq_true, Bool.not_eq_true', decide_eq_true_eq] at hpos ⊢
    by_cases hp : c ∈ (s.slot n).patrol
    · by_cases hk : (s.slot n).stand.known = true <;> by_cases ht : st.known = true <;> simp [hp, hk, ht] at hpos ⊢
      omega
    · simp [hp]
  · simp only [State.slot, State.slots_moveStand]
    by_cases e : n = m
    · subst e; rw [Table.get_upd_self]; exact h.live _
    · rw [Table.get_upd_ne _ _ e]; exact h.live m

/-! ### The grant queue -/

theorem State.Field.updEntry (n : SlotId) (f : QEntry → QEntry) : (s.updEntry n f).Field L := h.elsewhere rfl rfl rfl rfl
theorem State.Field.updLink (k : LinkId) (f : Link → Link) : (s.updLink k f).Field L := h.elsewhere rfl rfl rfl rfl

theorem State.Field.withdrawClaim (n : SlotId) : (s.withdrawClaim n).Field L := by
  unfold State.withdrawClaim
  split
  · split
    · have h' := (h.freePending n).updEntry n fun e => { e with pendingClaim := false }
      dsimp only
      split
      · exact h'.updLink _ _
      · exact h'
    · exact h
  · exact h

theorem State.Field.settleState {n : SlotId} (hn : L n) : (s.settleState n).Field L := by
  obtain ⟨h0, h1⟩ := restOrWait_live (s.inQueue n) (s.slot n).stand
  exact h.updSlot n (Slot.Like.work ((h.live n).2 hn) h0 h1 _ _)

theorem State.Field.leaveQueue (n : SlotId) : (s.leaveQueue n).Field L := by
  have h' := (h.withdrawClaim n).queue ((s.withdrawClaim n).queue.filter fun e => decide (e.slot ≠ n))
  refine h'.updSlot n ?_
  split
  · rename_i hw
    exact Slot.Like.work ⟨by rw [hw]; decide, by rw [hw]; decide⟩ (Stand.rest_ne_absent _) (Stand.rest_ne_retired _) _ _
  · exact Slot.Like.refl _

omit h in
theorem SlotState.joined_absent (st : SlotState) : st.joined = .absent ↔ st = .absent := by cases st <;> simp [SlotState.joined]
omit h in
theorem SlotState.joined_retired (st : SlotState) : st.joined = .retired ↔ st = .retired := by cases st <;> simp [SlotState.joined]

theorem State.Field.causeScan : s.causeScan.Field L := (quiet_field L).causeScan h

theorem State.Field.joinQueue (n : SlotId) : (s.joinQueue n).Field L := by
  exact ((h.queue (s.queue ++ [QEntry.fresh n])).updSlot n (f := fun sl => { sl with state := sl.state.joined })
    (Slot.Like.state (SlotState.joined_absent _) (SlotState.joined_retired _))).causeScan

theorem State.Field.judge (n : SlotId) : (s.judge n).Field L := by
  unfold State.judge
  split
  · split
    · exact h
    · exact h.leaveQueue n
  · split
    · exact h.joinQueue n
    · exact h

theorem State.Field.judgeAll : s.judgeAll.Field L := foldl_keeps (P := State.Field L) (fun _ n h => h.judge n) h

/-! ### Segments that close -/

theorem State.Field.raise (nt : Notice) : (s.raise nt).Field L := (quiet_field L).raise nt h

theorem State.Field.closeNotice (g : Segment) (o : SegOutcome) : (s.closeNotice g o).Field L := by
  cases o
  · exact h.raise _
  · exact h.raise _
  · exact h

theorem State.Field.withdrawClaimFor (n : SlotId) (id : SegId) : (s.withdrawClaimFor n id).Field L := by
  unfold State.withdrawClaimFor
  split
  · split
    · exact h.withdrawClaim n
    · exact h
  · exact h

theorem State.Field.updBatch (id : Nat) (f : Batch → Batch) : (s.updBatch id f).Field L := h.elsewhere rfl rfl rfl rfl

omit h in
theorem Branch.mem_orders_of_sub {a b : Branch} {o : Order} (ho : o ∈ b.orders) (hq : ∀ e ∈ b.queue, e ∈ a.queue)
    (hl : ∀ o ∈ b.backlog, o ∈ a.backlog) : o ∈ a.orders := by
  rw [Branch.mem_orders] at ho ⊢
  exact ho.imp (hq _) (hl _)

omit h in
theorem Branch.mem_orders_forget {br : Branch} {id : SegId} {o : Order} (ho : o ∈ (br.forget id).orders) : o ∈ br.orders :=
  Branch.mem_orders_of_sub ho (fun _ he => (List.mem_filter.1 he).1) (fun _ he => (List.mem_filter.1 he).1)

theorem State.Field.closeSeg (id : SegId) (o : SegOutcome) : (s.closeSeg id o).Field L := by
  unfold State.closeSeg
  split
  · exact h
  · rename_i g _
    refine State.Field.updSlot (State.Field.close (State.Field.updBranch (State.Field.withdrawClaimFor
      (State.Field.closeNotice ?_ _ _) _ _) _ fun o ho => .inl (Branch.mem_orders_forget ho)) id) _ ?_
    · split
      · exact h.updBatch _ _
      · exact h
    · exact Slot.Like.leave _ _

theorem State.Field.skipWhere (n : SlotId) (p : Segment → Option SkipReason) : (s.skipWhere n p).Field L := by
  refine foldl_keeps (P := State.Field L) (fun t x h => ?_) h
  split
  · exact h.closeSeg _ _
  · exact h

theorem State.Field.endBatches : s.endBatches.Field L := by
  obtain ⟨_, _, _, _, _, e⟩ := s.endBatches_eq
  rw [e]
  exact h.elsewhere rfl rfl rfl rfl

/-! ### Orders, dispatch and withdrawals -/

theorem State.Field.handOver {n : SlotId} (hn : L n) (id : SegId) (g : Segment) : (s.handOver n id g).Field L := by
  refine h.updBranch _ fun o ho => ?_
  rw [Branch.mem_orders] at ho ⊢
  split at ho
  · simp only [List.mem_append, List.mem_singleton, Entry.order.injEq] at ho
    obtain (ho | rfl) | ho := ho
    · exact .inl (.inl ho)
    · exact .inr (by rw [slotOf_branchOf]; exact hn)
    · exact .inl (.inr ho)
  · simp only [List.mem_append, List.mem_singleton] at ho
    obtain ho | ho | rfl := ho
    · exact .inl (.inl ho)
    · exact .inl (.inr ho)
    · exact .inr (by rw [slotOf_branchOf]; exact hn)

theorem State.Field.removeOrder (n : SlotId) (id : SegId) : (s.removeOrder n id).Field L :=
  h.updBranch _ fun _ ho => .inl (Branch.mem_orders_of_sub ho (fun _ he => (List.mem_filter.1 he).1)
    (fun _ he => (List.mem_filter.1 he).1))

theorem State.Field.dispatch {n : SlotId} (hn : L n) (id : SegId) : (s.dispatch n id).Field L := by
  unfold State.dispatch
  split
  · exact h
  · rename_i g _
    have h' : (s.updSlot n fun sl => { sl with state := g.body.workState }).Field L :=
      h.updSlot n (Slot.Like.work ((h.live n).2 hn) g.body.workState_live.1 g.body.workState_live.2 _ _)
    dsimp only
    split
    · exact (h'.dwell _).updSeg id fun _ => rfl
    · exact h'.handOver hn _ _

theorem State.Field.withdrawSeg (n : SlotId) (id : SegId) (g : Segment) : (s.withdrawSeg n id g).Field L := by
  unfold State.withdrawSeg
  dsimp only
  split
  · exact (h.removeOrder n id).closeSeg _ _
  · exact (h.removeOrder n id).updSeg _ fun _ => rfl

theorem State.Field.withdrawWhere (n : SlotId) (p : Segment → Bool) : (s.withdrawWhere n p).Field L := by
  unfold State.withdrawWhere
  dsimp only
  split
  · exact h
  · rename_i hne
    obtain ⟨x, hx⟩ := List.isEmpty_eq_false_iff_exists_mem.1 (Bool.eq_false_iff.2 hne)
    have hn : L n := h.of_chain (State.mem_grantedSegs (List.mem_filter.1 hx).1).1
    have h' := (foldl_keeps (P := State.Field L) (f := fun s (x : SegId × Segment) => s.withdrawSeg n x.1 x.2)
      (l := (s.grantedSegs n).filter fun x => decide (x.2.state = .granted) && p x.2) (fun _ _ h => h.withdrawSeg n _ _) h).rehold n
    split
    · exact h'.settleState hn
    · exact h'

theorem State.Field.withdrawClaims : s.withdrawClaims.Field L :=
  foldl_keeps (P := State.Field L) (fun _ _ h => h.withdrawClaim _) h

theorem State.Field.holdWithdrawals : s.holdWithdrawals.Field L :=
  (State.Field.withdrawClaims (foldl_keeps (P := State.Field L) (fun _ _ h => h.withdrawWhere _ _) h)).judgeAll

/-! ### Ends of segments -/

theorem State.Field.faultSlot {n : SlotId} (hn : L n) (c : FaultCode) : (s.faultSlot n c).Field L := by
  unfold State.faultSlot
  split
  · exact h
  · have h' := h.leaveQueue n
    exact (State.Field.raise (h'.updSlot n (f := fun sl => { sl with state := .faulted, fault := some c })
      (Slot.Like.work ((h'.live n).2 hn) (by decide) (by decide) _ _)) _).skipWhere _ _

theorem State.Field.nextSeg {n : SlotId} (hn : L n) : (s.nextSeg n).Field L := by
  unfold State.nextSeg
  split
  · exact h.dispatch hn _
  · exact h.settleState hn

theorem State.Field.withdrawGranted (n : SlotId) : (s.withdrawGranted n).Field L :=
  foldl_keeps (P := State.Field L) (fun _ _ h => h.withdrawSeg n _ _) h

theorem State.Field.doneSeg {n : SlotId} (hn : L n) (id : SegId) (g : Segment) : (s.doneSeg n id g).Field L := by
  unfold State.doneSeg
  split
  · exact (((h.moveStand hn _).closeSeg _ _).settleCells n).nextSeg hn
  · exact ((((h.moveStand hn _).closeSeg _ _).withdrawGranted n).faultSlot hn _).settleCells n

theorem State.Field.skipRule (n : SlotId) (b : Option Nat) : (s.skipRule n b).Field L := by
  unfold State.skipRule
  split
  · exact h.skipWhere n _
  · exact h

theorem State.Field.failSeg {n : SlotId} (hn : L n) (id : SegId) (g : Segment) (r : FailReason) (x y : Int) :
    (s.failSeg n id g r x y).Field L := by
  unfold State.failSeg
  dsimp only
  have h' := (((h.moveStand hn ((s.slot n).stand.afterFailure r x y g.body.sweep)).closeSeg id (.failed r)).skipRule n
    g.batch).withdrawGranted n
  split
  · exact (h'.faultSlot hn _).settleCells n
  · exact (h'.settleCells n).settleState hn

theorem State.Field.endFlight (b : BranchId) (d : DropId) (x y : Bool) : (s.endFlight b d x y).Field L :=
  h.updBranch b fun _ ho => .inl (Branch.mem_orders_of_sub ho (fun _ he => (List.mem_filter.1 he).1) (fun _ he => he))

theorem State.Field.applyOutcome {b : BranchId} {d : DropId} (hn : L (slotOf b d)) (id : SegId) (x y : Bool) (o : SegOutcome)
    (i j : Int) : (s.applyOutcome b d id x y o i j).Field L := by
  unfold State.applyOutcome
  dsimp only
  have h' := h.endFlight b d x (decide (o = .done) && y)
  split
  · exact h'.doneSeg hn _ _
  · exact h'.failSeg hn _ _ _ _ _
  · exact h'

theorem State.Field.endOutcome (b : BranchId) (n : SlotId) (o : SegOutcome) : (s.endOutcome b n o).Field L := by
  unfold State.endOutcome
  dsimp only
  split
  · exact (quiet_field L).finishHalt (((h.judge n).sector .hold).holdWithdrawals.endBatches.raise _) b
  · exact (quiet_field L).finishHalt (h.judge n).endBatches b

theorem State.Field.complete {b : BranchId} {d : DropId} (hn : L (slotOf b d)) (id : SegId) (x y : Bool) (o : SegOutcome)
    (i j : Int) : (s.complete b d id x y o i j).Field L := (h.applyOutcome hn id x y o i j).endOutcome _ _ _

theorem State.Field.endDwell (n : SlotId) : (s.endDwell n).Field L := by
  unfold State.endDwell
  split
  · rename_i e
    exact (h.dwell _).doneSeg (h.of_chain (State.activeDwell_mem e).1) _ _
  · exact h

theorem State.Field.cutDwell (n : SlotId) : (s.cutDwell n).Field L := by
  unfold State.cutDwell
  split
  · exact (h.dwell _).closeSeg _ _
  · exact h

theorem State.Field.silent (n : SlotId) : (s.silent n).Field L := by
  unfold State.silent
  split
  · exact h
  · exact h
  · exact h
  · rename_i h0 h1 _
    exact ((((h.cutDwell n).withdrawGranted n).rehold n).faultSlot ((h.live n).1 ⟨h0, h1⟩) _).endBatches

/-! ### Halts and the sector -/

theorem State.Field.enterSector (st : SectorState) : (s.enterSector st).Field L :=
  (h.sector st).raise _

theorem State.Field.haltOrder {b : BranchId} {o : Order} (hn : L (slotOf b o.drop)) : (s.haltOrder b o).Field L := by
  unfold State.haltOrder
  split
  · exact (h.removeOrder _ _).applyOutcome hn _ _ _ _ _ _
  · exact h.withdrawWhere _ _

omit h in
theorem State.Field.haltOrders {b : BranchId} {l : List Order} {s : State} (h : s.Field L) (hl : ∀ o ∈ l, L (slotOf b o.drop)) :
    (l.foldl (fun s o => s.haltOrder b o) s).Field L := by
  induction l generalizing s with
  | nil => exact h
  | cons o l ih =>
    exact ih (h.haltOrder (hl o List.mem_cons_self)) fun x hx => hl x (List.mem_cons_of_mem _ hx)

theorem State.Field.requestHalt (b : BranchId) : (s.requestHalt b).Field L := by
  refine State.Field.updBranch (h.haltOrders (h.orders b)) b fun o ho => .inl ?_
  exact Branch.mem_orders_of_sub ho (fun _ he => (List.mem_filter.1 he).1) (fun _ he => by cases he)

theorem State.Field.enterStopping : s.enterStopping.Field L := by
  unfold State.enterStopping
  dsimp only
  have h1 := (foldl_keeps (P := State.Field L) (f := fun s n => s.withdrawWhere n fun _ => true) (l := allSlots)
    (fun _ _ h => h.withdrawWhere _ _) (h.enterSector .stopping)).withdrawClaims
  have h2 := foldl_keeps (P := State.Field L) (f := State.endDwell) (l := allSlots) (fun _ _ h => h.endDwell _) h1
  exact (State.Field.judgeAll (foldl_keeps (P := State.Field L) (fun _ _ h => h.requestHalt _) (h2.haltOut _))).endBatches

theorem State.Field.enterHold : s.enterHold.Field L := (h.enterSector .hold).holdWithdrawals.endBatches

theorem State.Field.takeStop : s.takeStop.Field L := by
  unfold State.takeStop
  split
  · exact h.enterStopping
  · exact h.enterStopping
  · exact h.startStop _
  · exact h

/-! ### Grants and scans -/

theorem State.Field.award {n : SlotId} (hn : L n) (id : SegId) (g : Segment) : (s.award n id g).Field L := by
  unfold State.award
  dsimp only
  have h1 := (h.takeCells n (s.sweepOf n g)).updSeg id (f := fun g => { g with state := .granted, continuation := false }) fun _ => rfl
  split
  · exact (h1.queue _).dispatch hn _
  · exact h1.queue _

theorem State.Field.makeClaim (n : SlotId) (id : SegId) (k : LinkId) (l : List CellId) : (s.makeClaim n id k l).Field L :=
  (quiet_field L).send (((h.updCells (f := fun i r => if named i l ∧ r.owner = .free then { r with owner := .pending n } else r)
    fun i r => by split <;> rfl).updEntry _ _).updLink _ _) _ _

theorem State.Field.judgeEntry (n : SlotId) : (s.judgeEntry n).1.Field L := by
  unfold State.judgeEntry
  split
  · rename_i hu
    have hn : L n := h.of_chain (State.firstUngranted_mem hu).1
    dsimp only
    repeat' split
    all_goals first
      | exact h
      | exact h.award hn _ _
      | exact h.makeClaim _ _ _ _
  · exact h

omit h in
theorem State.Field.scanEntries {s : State} (h : s.Field L) (l : List SlotId) : (s.scanEntries l).1.Field L := by
  induction l generalizing s with
  | nil => exact h
  | cons n l ih => exact ih (h.judgeEntry n)

theorem State.Field.makeScan : s.makeScan.Field L := by
  exact foldl_keeps (P := State.Field L) (fun _ _ h => h.judge _)
    (foldl_keeps (P := State.Field L) (fun _ _ h => h.updEntry _ _) ((h.scanDue false).scanEntries _))

end Field

end Sys2Proof.Machine
end


section
/-! SUPPORT. Slots and shadows in agreement (R24, R29): every command keeps it. A request is followed through its owning rule, an
event from the line or a timer through its meaning; a reset builds it anew from a store within its limits. -/

namespace Sys2Proof.Machine

/-! ### The batches' rules -/

section Field
variable {L : SlotId → Prop} {s : State} (h : s.Field L)
include h

/-- Another segment pool, with no segment for another slot. -/
theorem State.Field.pool {x : Table 1024 (Option Segment)} (hx : ∀ id g, x.get id = some g → ∃ y, s.seg id = some y ∧ y.slot = g.slot) :
    State.Field L { s with pool := x } := ⟨h.sound.of_same rfl (fun _ => rfl) hx, h.live, h.orders⟩

theorem State.Field.free (x : List SegId) : State.Field L { s with free := x } := h.elsewhere rfl rfl rfl rfl
theorem State.Field.batches (x : Table 4 (Option Batch)) : State.Field L { s with batches := x } := h.elsewhere rfl rfl rfl rfl
theorem State.Field.loadError (x : Bool) : State.Field L { s with loadError := x } := h.elsewhere rfl rfl rfl rfl

omit h in
theorem get_foldl_set_none {l : List SegId} {t : Table 1024 (Option Segment)} {i : SegId} {g : Segment}
    (hg : (l.foldl (fun t id => t.set id none) t).get i = some g) : t.get i = some g := by
  induction l generalizing t with
  | nil => exact hg
  | cons a l ih =>
    have := ih hg
    rw [Table.get_set] at this
    split at this
    · cases this
    · exact this

theorem State.Field.abandon (b : Batch) : (s.abandon b).Field L :=
  ((h.pool fun _ g hg => ⟨g, get_foldl_set_none hg, rfl⟩).free _).batches _

theorem State.Field.sequenceViolation : s.sequenceViolation.Field L := by
  unfold State.sequenceViolation
  refine State.Field.loadError ?_ true
  split
  · exact h.abandon _
  · exact h

theorem State.Field.openBatchRule (id : Nat) : (openBatchRule id s).state.Field L := by
  unfold Machine.openBatchRule
  repeat' split
  all_goals dsimp only [State.reply]
  all_goals with_reducible first | exact h | exact h.sequenceViolation | exact h.batches _

/-- A record is taken for a segment of a slot that is not ABSENT (R55, R138). -/
theorem State.Field.takeRecord {g : Segment} (hg : (s.slot g.slot).state ≠ .absent) (id : SegId) (l : List SegId) :
    (s.takeRecord id l g).Field L := by
  refine ⟨{ h.sound with shadow := h.sound.shadow, segments := fun i x hx => ?_ }, h.live, h.orders⟩
  simp only [State.seg, State.takeRecord, Table.get_set] at hx
  split at hx
  · cases hx; exact hg
  · exact h.sound.segments i x hx

theorem State.Field.loadSegmentRule (d : Descriptor) : (loadSegmentRule d s).state.Field L := by
  unfold Machine.loadSegmentRule
  dsimp only
  repeat' split
  all_goals dsimp only [State.reply, State.replyWith]
  all_goals with_reducible first | exact h | exact h.sequenceViolation | exact (h.takeRecord (by assumption) _ _).updBatch _ _

theorem State.Field.chainStaged (id : SegId) (hid : ∀ g, s.seg id = some g → L g.slot) : (s.chainStaged id).Field L := by
  unfold State.chainStaged
  split
  · rename_i g hg
    have h' := h.updSeg id (f := fun g => { g with state := .chained }) fun _ => rfl
    have hl := (h'.live g.slot).2 (hid g hg)
    exact h'.updSlot g.slot (Slot.Like.work hl hl.1 hl.2 _ _)
  · exact h

omit h in
/-- Chaining a staged segment leaves every segment its slot. -/
theorem State.slot_of_chainStaged {s : State} {id i : SegId} {g : Segment} (hg : (s.chainStaged id).seg i = some g) :
    ∃ x, s.seg i = some x ∧ x.slot = g.slot := by
  unfold State.chainStaged at hg
  split at hg
  · simp only [State.seg, State.updSlot_pool] at hg
    change (s.updSeg id _).seg i = some g at hg
    by_cases e : id = i
    · subst e
      rw [State.seg_updSeg_self, Option.map_eq_some_iff] at hg
      obtain ⟨x, hx, rfl⟩ := hg
      exact ⟨x, hx, rfl⟩
    · rw [State.seg_updSeg_ne _ _ e] at hg
      exact ⟨g, hg, rfl⟩
  · exact ⟨g, hg, rfl⟩

omit h in
theorem State.Field.chainAll {s : State} (h : s.Field L) {l : List SegId} (hl : ∀ id ∈ l, ∀ g, s.seg id = some g → L g.slot) :
    (l.foldl State.chainStaged s).Field L := by
  induction l generalizing s with
  | nil => exact h
  | cons id l ih =>
    refine ih (h.chainStaged id (hl id List.mem_cons_self)) fun i hi g hg => ?_
    obtain ⟨x, hx, e⟩ := State.slot_of_chainStaged hg
    rw [← e]
    exact hl i (List.mem_cons_of_mem _ hi) x hx

/-- With no staged segment for a RETIRED slot, every staged segment is for a slot that works (R58). -/
theorem State.Field.staged_live {b : Batch} (hb : s.retiredStaged b = none) {id : SegId} (hid : id ∈ b.staging) {g : Segment}
    (hg : s.seg id = some g) : L g.slot := by
  refine (h.live _).1 ⟨h.sound.segments id g hg, fun hr => ?_⟩
  have hpos : 0 < s.stagedFor b g.slot :=
    List.length_pos_of_mem (List.mem_filter.2 ⟨hid, by simp [hg]⟩)
  have := List.find?_eq_none.1 hb g.slot (List.mem_finRange _)
  simp [hpos, hr] at this

theorem State.Field.commit {b : Batch} (hb : s.retiredStaged b = none) : (s.commit b).Field L :=
  ((State.Field.updBatch (h.chainAll fun _ hid _ hg => h.staged_live hb hid hg) _ _).judgeAll).endBatches

theorem State.Field.commitBatchRule (id : Nat) : (commitBatchRule id s).state.Field L := by
  unfold Machine.commitBatchRule
  repeat' split
  all_goals dsimp only [State.reply]
  all_goals with_reducible first | exact h | exact h.sequenceViolation | exact h.commit (by assumption)

theorem State.Field.cancelOpenRule : (cancelOpenRule s).state.Field L := by
  unfold Machine.cancelOpenRule
  split
  · exact h.abandon _
  · exact h

theorem State.Field.abortSlot (id : Nat) (n : SlotId) : (s.abortSlot id n).Field L := by
  unfold State.abortSlot
  dsimp only
  have h' := (h.skipWhere n fun g => if g.batch = some id ∧ g.state = .chained then some .aborted else none).withdrawWhere n
    fun g => decide (g.batch = some id) && !g.continuation
  split
  · rename_i x _ hx
    split
    · exact h'
    · exact h'.dispatch (h'.of_chain (State.mem_grantedSegs (x := x) (by rw [hx]; exact List.mem_cons_self)).1) _
  · exact h'

theorem State.Field.finish (old : State) : (s.finish old).Field L := (quiet_field L).finish h old

theorem State.Field.abortBatch (b : Batch) : (s.abortBatch b).Field L :=
  ((State.Field.judgeAll (foldl_keeps (P := State.Field L) (fun _ _ h => h.abortSlot _ _) (h.updBatch _ _))).endBatches).finish s

theorem State.Field.abortBatchRule (id : Nat) : (abortBatchRule id s).state.Field L := by
  unfold Machine.abortBatchRule
  repeat' split
  all_goals dsimp only [State.reply]
  all_goals with_reducible first | exact h | exact h.abortBatch _

/-! ### The rules of the sector and of the slots -/

theorem State.Field.holdRule : (holdRule s).state.Field L := by
  unfold Machine.holdRule
  split
  · exact h.enterHold.finish s
  · exact h

theorem State.Field.resumeRule : (resumeRule s).state.Field L := by
  unfold Machine.resumeRule
  repeat' split
  all_goals dsimp only [State.reply]
  all_goals with_reducible first | exact h | exact (h.enterSector _).causeScan

theorem State.Field.stopRule : (stopRule s).state.Field L := h.takeStop.finish s

theorem State.Field.clearFaultRule (n : Nat) : (clearFaultRule n s).state.Field L := by
  unfold Machine.clearFaultRule
  split
  · exact h
  · rename_i n _
    split
    · exact h
    · split
      · rename_i hf
        have hl : (s.slot n).Live := ⟨by rw [hf]; decide, by rw [hf]; decide⟩
        exact State.Field.judge (h.updSlot n (f := fun sl => { sl with fault := none, state := sl.stand.rest })
          (Slot.Like.work hl (Stand.rest_ne_absent _) (Stand.rest_ne_retired _) _ _)) n
      · exact h

/-- A slot with an empty chain and a footprint is RETIRED (R20): it casts no shadow before and after. -/
theorem State.Field.retireAt {n : SlotId} {a : Theta} {f : Phi} {l : List CellId} (h0 : (s.slot n).state ≠ .absent)
    (hs : (s.slot n).stand = .footprint a f l) (hc : (s.slot n).chain = []) : (s.retireAt n a f l).FieldSound := by
  have hpop := h.sound.present n h0
  have hself : (s.retireAt n a f l).slot n = { s.slot n with state := .retired, fault := none } := by
    simp only [State.retireAt, State.slot_updSlot_self]; rfl
  have hne : ∀ m, n ≠ m → (s.retireAt n a f l).slot m = s.slot m := fun m e => by
    simp only [State.retireAt, State.slot_updSlot_ne _ _ e]; rfl
  refine ⟨fun c => ?_, fun c => ?_, fun m hm => ?_, fun m hm => ?_, fun m hm => ?_, fun id g hg hm => ?_⟩
  · refine (h.sound.shadow c).trans (Eq.symm (Table.countP_upd_same s.slots n _ _ ?_))
    have hk : (s.slots.get n).stand.known = true := by rw [show (s.slots.get n).stand = _ from hs]; rfl
    simp [Slot.casts, hk]
  · exact (Table.countP_upd_same s.slots n _ (fun sl => decide (c ∈ sl.patrol)) rfl).trans_le (h.sound.patrols c)
  · by_cases e : n = m
    · subst e; rw [hself] at hm; cases hm
    · rw [hne m e] at hm ⊢; exact h.sound.absent m hm
  · by_cases e : n = m
    · subst e; rw [hself]; exact hpop
    · rw [hne m e] at hm ⊢; exact h.sound.present m hm
  · by_cases e : n = m
    · subst e; rw [hself]; exact ⟨by simp [hs, Stand.known], hc⟩
    · rw [hne m e] at hm ⊢; exact h.sound.retired m hm
  · by_cases e : n = g.slot
    · rw [← e, hself] at hm; cases hm
    · rw [hne _ e] at hm; exact h.sound.segments id g hg hm

theorem State.Field.retireRule (n : Nat) : (retireRule n s).state.FieldSound := by
  unfold Machine.retireRule
  split
  · exact h.sound
  · rename_i n _
    dsimp only
    split
    · exact h.sound
    · rename_i h0
      split
      · exact h.sound
      · split
        · exact h.sound
        · rename_i hc
          have hc : (s.slot n).chain = [] := not_not.1 hc
          split
          · rename_i hs; exact h.retireAt h0 hs hc
          · exact h.sound
          · rename_i hs; exact h.retireAt h0 hs hc
          · exact h.sound

omit h in
/-- A RETIRED slot is PARKED again (R21): it stands at a known position and casts no shadow before and after. -/
theorem State.FieldSound.unretire {s : State} (h : s.FieldSound) {n : SlotId} (hr : (s.slot n).state = .retired) :
    (s.updSlot n fun sl => { sl with state := .parked }).FieldSound := by
  have hk := (h.retired n hr).1
  have hcasts : ∀ c (sl : Slot), sl.stand.known = true → sl.casts c = false := fun c sl hk => by simp [Slot.casts, hk]
  refine h.recast n (fun sl => { sl with state := .parked }) rfl rfl rfl ⟨nofun, nofun⟩ (h.present n (by rw [hr]; decide))
    fun c => ?_
  rw [hcasts c (s.slot n) hk, hcasts c _ (show Stand.known (Slot.stand { s.slot n with state := .parked }) = true from hk)]
  rfl

theorem State.Field.unretireRule (n : Nat) : (unretireRule n s).state.FieldSound := by
  unfold Machine.unretireRule
  split
  · exact h.sound
  · split
    · exact h.sound
    · split
      · rename_i n _ _ hr
        have h' : State.FieldSound { s with retired := s.retired.set n none } := h.sound.elsewhere rfl rfl rfl
        dsimp only [State.reply]
        exact quiet_fieldSound.arbitrate (h'.unretire hr) _
      · exact h.sound

/-! ### The metrology rules -/

omit h in
theorem SlotState.parkedBy_absent (st : SlotState) : st.parkedBy = .absent ↔ st = .absent := by cases st <;> simp [SlotState.parkedBy]
omit h in
theorem SlotState.parkedBy_retired (st : SlotState) : st.parkedBy = .retired ↔ st = .retired := by
  cases st <;> simp [SlotState.parkedBy]

theorem State.Field.placeAt {n : SlotId} (hn : L n) (a : Theta) (f : Phi) (l : List CellId) : (s.placeAt n a f l).Field L := by
  unfold State.placeAt
  dsimp only
  have h' := State.Field.judge ((((h.moveStand hn (.footprint a f l)).takeCells n l).settleCells n).updSlot n
    (f := fun sl => { sl with state := sl.state.parkedBy })
    (Slot.Like.state (SlotState.parkedBy_absent _) (SlotState.parkedBy_retired _))) n
  split
  · exact h'.causeScan
  · exact h'

theorem State.Field.settleEvent (old : State) : (s.settleEvent old).Field L := (quiet_field L).settleEvent h old

theorem State.Field.scanWhen (b : Bool) : (s.scanWhen b).Field L := by
  unfold State.scanWhen
  split
  · exact h.causeScan
  · exact h

theorem State.Field.measureRule (a b c : Nat) (l : List Nat) : (measureRule a b c l s).state.Field L := by
  unfold Machine.measureRule
  split
  · exact h
  · split
    · exact h
    · exact h
    · exact h
    · exact h
    · exact h
    · rename_i h0 h1 _ _ _
      split
      · exact h
      · split
        · exact (h.placeAt ((h.live _).1 ⟨h0, h1⟩) _ _ _).settleEvent s
        · exact h

theorem State.Field.setFootprintRule (a : Nat) (l : List Nat) : (setFootprintRule a l s).state.Field L := by
  unfold Machine.setFootprintRule
  split
  · split
    · exact h
    · exact h
    · exact h
    · exact h
    · exact h
    · rename_i h0 h1 _ _ _
      split
      · exact h
      · split
        · exact h
        · split
          · exact ((h.placeAt ((h.live _).1 ⟨h0, h1⟩) _ _ _).scanWhen _).settleEvent s
          · exact h
  · exact h

theorem State.Field.addTrim {n : SlotId} (hn : L n) (b : SegBody) (tag : Nat) (id : SegId) (l : List SegId) :
    (s.addTrim n b tag id l).Field L := by
  have hl := (h.live n).2 hn
  have h' := h.takeRecord (g := ⟨n, b, tag, none, .chained, false⟩) hl.1 id l
  exact (h'.updSlot n (f := fun sl => { sl with chain := sl.chain ++ [id] }) (Slot.Like.work hl hl.1 hl.2 _ _)).judge n

theorem State.Field.loadTrimRule (d : Descriptor) : (loadTrimRule d s).state.Field L := by
  unfold Machine.loadTrimRule
  split
  · exact h
  · split
    · exact h
    · split
      · exact h
      · exact h
      · exact h
      · exact h
      · rename_i h0 h1 _ _
        have hn := (h.live _).1 ⟨h0, h1⟩
        repeat' split
        all_goals dsimp only [State.reply, State.replyWith]
        all_goals with_reducible first | exact h | exact h.addTrim hn _ _ _ _

/-! ### The border links -/

theorem State.Field.send (k : LinkId) (f : BorderFrame) : (s.send k f).Field L := h.updLink k _
theorem State.Field.sendRelease (k : LinkId) (l : List CellId) : (s.sendRelease k l).Field L := (quiet_field L).sendRelease h k l
theorem State.Field.endClaim (k : LinkId) (c : Claim) (e : ClaimEnd) : (s.endClaim k c e).Field L := h.updLink _ _

theorem State.Field.backOff (c : Claim) : (s.backOff c).Field L := by
  unfold State.backOff
  split
  · exact h
  · exact (h.freePending _).updEntry _ _

theorem State.Field.timeOutClaim (k : LinkId) : (s.timeOutClaim k).Field L := by
  unfold State.timeOutClaim
  split
  · exact (((h.sendRelease k _).endClaim k _ _).backOff _).causeScan
  · exact h

theorem State.Field.enterLink (k : LinkId) (st : LinkState) : (s.enterLink k st).Field L := (h.updLink _ _).raise _

theorem State.Field.countTimeout (k : LinkId) : (s.countTimeout k).Field L := by
  unfold State.countTimeout
  split
  · exact h
  · have h' := h.updLink k fun l => { l with timeouts := l.timeouts + 1 }
    dsimp only
    split
    · exact (h'.enterLink k _).timeOutClaim k
    · exact h'

theorem State.Field.greet (k : LinkId) (x : SectorId) : (s.greet k x).Field L := by
  unfold State.greet
  have h' := h.updLink k fun l => { l with neighbour := some x, timeouts := 0 }
  dsimp only
  split
  · exact h'.enterLink k _
  · exact h'

theorem State.Field.takeClaim (k : LinkId) (n : Byte) (l : List Nat) : (s.takeClaim k n l).Field L := by
  unfold State.takeClaim
  split
  · exact h.send k _
  · split
    · exact (h.lend k _).send k _
    · exact h.send k _

theorem State.Field.takeGrant (k : LinkId) (c : Claim) : (s.takeGrant k c).Field L := by
  unfold State.takeGrant
  dsimp only
  have h' := (((h.sendRelease k (s.stillAway k c.cells)).endClaim k c .released).backOff c).causeScan
  split
  · exact h'
  · split
    · exact h'
    · rename_i hu
      split
      · exact (State.Field.judge ((h.endClaim k c .granted).award (h.of_chain (State.firstUngranted_mem hu).1) _ _) _).causeScan
      · exact h'

/-- What a GRANT frame of a number does behind its greeting (R124, R125, R128). -/
def State.grantFrame (k : LinkId) (n : Byte) (s : State) : State :=
  match (s.link k).claim with
  | some c => if c.number = n then s.takeGrant k c else s.lateGrant k n
  | none => s.lateGrant k n

omit h in
theorem exec_grant (k : LinkId) (x : SectorId) (n : Byte) (s : State) :
    exec (.grant k x n) s = .next (s.borderEvent k x false (State.grantFrame k n)) := rfl

theorem State.Field.grantFrame (k : LinkId) (n : Byte) : (State.grantFrame k n s).Field L := by
  unfold State.grantFrame
  split
  · split
    · exact h.takeGrant k _
    · exact h.sendRelease k _
  · exact h.sendRelease k _

theorem State.Field.takeRelease (k : LinkId) (l : List Nat) : (s.takeRelease k l).Field L := by
  unfold State.takeRelease
  dsimp only
  have h' := h.updCells (f := fun i r => if named i (s.cellsOn k l) ∧ r.owner = .lent k then { r with owner := .free } else r)
    fun i r => by split <;> rfl
  split
  · exact (h'.queue _).causeScan
  · exact h'.queue _

theorem State.Field.report (k : LinkId) : (s.report k).Field L := by
  refine State.Field.send (h.updCells fun i r => ?_) k _
  split
  · split <;> rfl
  · rfl

theorem State.Field.applyLent (k : LinkId) (l : List CellId) : (s.applyLent k l).Field L := by
  refine State.Field.sendRelease (h.updCells fun i r => ?_) k _
  split
  · split
    · rfl
    · split <;> rfl
  · rfl

theorem State.Field.takeReport (k : LinkId) (a b : List Nat) : (s.takeReport k a b).Field L := by
  unfold State.takeReport
  dsimp only
  have h' := h.updLink k fun l => { l with syncOwed := false, syncTimer := none }
  refine State.Field.applyLent (State.Field.updCells ?_ fun i r => by split <;> rfl) k _
  split
  · exact h'
  · exact h'.enterLink k _

theorem State.Field.reclaimBorderRule (n : Nat) : (reclaimBorderRule n s).state.Field L := by
  unfold Machine.reclaimBorderRule
  split
  · exact h
  · split
    · rename_i k _ _
      exact (State.Field.updLink (h.updCells (f := fun _ r => { r with owner := r.owner.reclaimed k }) fun _ _ => rfl) _ _).causeScan
    · exact h

/-! ### The branch lines -/

theorem State.Field.freeBus (b : BranchId) : (s.freeBus b).Field L := h.updBranch b fun _ ho => .inl ho

theorem State.Field.takeSenses (n : SlotId) (x : Senses) : (s.takeSenses n x).Field L := by
  unfold State.takeSenses
  dsimp only
  split
  · exact State.Field.raise (h.elsewhere (t := s.updSense n _) rfl rfl rfl rfl) _
  · exact h.elsewhere rfl rfl rfl rfl

/-- A slot found by a census works from then on, and casts its shadow (R8, R29). -/
theorem State.Field.found (n : SlotId) : (s.found n).FieldSound := by
  unfold State.found
  split
  · rename_i ha
    obtain ⟨hpop, hst, -⟩ := h.sound.absent n ha
    have h1 : ((s.castShadow n).updSlot n fun sl => { sl with state := .unknown, populated := true }).FieldSound := by
      refine h.sound.recast n (fun sl => { sl with state := .unknown, populated := true }) rfl rfl rfl ⟨by simp, by simp⟩ rfl
        fun c => ?_
      have hc : ((s.castShadow n).cell c).shadow = (s.cell c).shadow + if c ∈ (s.slot n).patrol then 1 else 0 := by
        by_cases hp : c ∈ (s.slot n).patrol <;> simp [State.castShadow, named_iff, hp]
      show ((s.castShadow n).cell c).shadow + _ = _
      rw [hc]
      simp [Slot.casts, hpop, hst, Stand.known]
    have h2 : State.Field (fun m => L m ∨ m = n)
        ((s.castShadow n).updSlot n fun sl => { sl with state := .unknown, populated := true }) := by
      refine ⟨h1, fun m => ?_, fun b o ho => .inl (h.orders b o ho)⟩
      by_cases e : n = m
      · subst e
        rw [State.slot_updSlot_self]
        exact ⟨fun _ => .inr rfl, fun _ => ⟨by simp, by simp⟩⟩
      · rw [State.slot_updSlot_ne _ _ e]
        exact (h.live m).trans ⟨.inl, fun hm => hm.resolve_right (Ne.symm e)⟩
    exact (h2.judge n).sound
  · exact h.sound

theorem State.Field.notFound (n : SlotId) : (s.notFound n).Field L := by
  unfold State.notFound
  split
  · exact h.silent n
  · exact h

theorem State.Field.takeNak {b : BranchId} {o : Order} (hn : L (slotOf b o.drop)) (l : Nat) : (s.takeNak b o l).FieldSound := by
  unfold State.takeNak
  dsimp only
  have h' := h.freeBus b
  split
  · exact (h'.complete hn _ _ _ _ _ _).sound
  · split
    · exact (h'.complete hn _ _ _ _ _ _).sound
    · exact h'.sound.elsewhere rfl rfl rfl

theorem State.Field.readStatus {b : BranchId} {d : DropId} (hd : ∀ e, (s.branch b).pollOf d = some e → L (slotOf b d)) (x : Bool)
    (r : StatusReply) : (s.readStatus b d x r).Field L := by
  unfold State.readStatus
  split
  · exact h
  · rename_i e he
    split
    · exact h
    · split
      · exact h.complete (hd e he) _ _ _ _ _ _
      · split
        · exact h.complete (hd e he) _ _ _ _ _ _
        · exact h

end Field

/-! ### An event's start -/

/-- Slots and shadows agree, and every step order, waiting, on the bus or in flight, is for a slot that works. -/
structure State.Crewed (L : SlotId → Prop) (s : State) : Prop extends s.Field L where
  onBus : ∀ b o l, (s.branch b).bus = some { call := .entry (.order o), left := l } → L (slotOf b o.drop)
  polled : ∀ b, ∀ e ∈ (s.branch b).poll, L (slotOf b e.drop)

theorem State.Ledger.crewed {s : State} (hl : s.Ledger) (hf : s.FieldSound) : s.Crewed fun n => (s.slot n).Live where
  sound := hf
  live _ := .rfl
  orders b o ho := by
    refine hf.live_of_chain (List.ne_nil_of_mem (a := o.seg) ?_)
    rw [Branch.mem_orders] at ho
    exact ho.elim (hl.queued b o) (hl.setBack b o)
  onBus b o l hb := hf.live_of_chain (List.ne_nil_of_mem (hl.onBus b o l hb))
  polled b e he := hf.live_of_chain (List.ne_nil_of_mem (hl.polled b e he))

section Crewed
variable {L : SlotId → Prop} {s : State} (h : s.Crewed L)
include h

theorem State.Crewed.elsewhere {t : State} (hs : t.slots = s.slots) (hc : t.cells = s.cells) (hp : t.pool = s.pool)
    (hb : t.branches = s.branches) : t.Crewed L where
  toField := h.toField.elsewhere hs hc hp hb
  onBus b := by simp only [State.branch, hb]; exact h.onBus b
  polled b := by simp only [State.branch, hb]; exact h.polled b

theorem State.Crewed.of_pollOf {b : BranchId} {d : DropId} {e : PollEntry} (he : (s.branch b).pollOf d = some e) :
    L (slotOf b d) := by
  have hd : e.drop = d := by simpa using List.find?_some he
  exact hd ▸ h.polled b e (List.mem_of_find?_eq_some he)

theorem State.Crewed.takeStatus (b : BranchId) (d : DropId) (w : Purpose) (r : StatusReply) : (s.takeStatus b d w r).Field L := by
  unfold State.takeStatus
  have h' := (h.toField.freeBus b).takeSenses (slotOf b d) r.senses
  have hb : ((s.freeBus b).takeSenses (slotOf b d) r.senses).branch b = { s.branch b with bus := none } := by
    have : ((s.freeBus b).takeSenses (slotOf b d) r.senses).branches = (s.freeBus b).branches := by
      unfold State.takeSenses
      dsimp only
      split <;> rfl
    simp only [State.branch, this]
    exact State.branch_updBranch_self s b _
  have hd : ∀ e, (((s.freeBus b).takeSenses (slotOf b d) r.senses).branch b).pollOf d = some e → L (slotOf b d) := by
    intro e he
    rw [hb] at he
    exact h.of_pollOf he
  dsimp only
  split
  · exact h'
  · exact h'.readStatus hd _ _
  · exact h'.readStatus hd _ _

theorem State.Crewed.noReply {b : BranchId} {e : Entry} {l : Nat} (hb : (s.branch b).bus = some { call := .entry e, left := l })
    (x : List Byte) : (s.noReply b e x).FieldSound := by
  unfold State.noReply
  dsimp only
  have h' := h.toField.freeBus b
  split
  · rename_i o
    exact (h'.complete (h.onBus b o l hb) _ _ _ _ _ _).sound
  · exact (h'.silent _).sound
  · rename_i d _ _
    split
    · rename_i p hp
      have hp : (s.branch b).pollOf d = some p := by
        rw [State.freeBus, State.branch_updBranch_self] at hp; exact hp
      exact (h'.complete (h.of_pollOf hp) _ _ _ _ _ _).sound
    · exact h'.sound
  · exact (h'.notFound _).sound.elsewhere rfl rfl rfl
  · exact ((quiet_field L).answerService h' _ _).sound

theorem State.Crewed.windowEnd (b : BranchId) (x : List Byte) : (s.windowEnd b x).FieldSound := by
  unfold State.windowEnd
  split
  · exact h.sound
  · exact (h.toField.freeBus b).sound
  · rename_i hb; exact h.noReply hb x
  · exact h.sound.elsewhere rfl rfl rfl

end Crewed

end Sys2Proof.Machine
end


section
/-! SUPPORT. Slots and shadows in agreement (R24, R29) over a whole step, and what a scan leaves (R30, R78). -/

namespace Sys2Proof.Machine

/-! ### Requests and events -/

theorem State.FieldSound.kickPorts {s : State} (h : s.FieldSound) : s.kickPorts.FieldSound := by
  obtain ⟨_, _, e⟩ := s.kickPorts_eq
  rw [e]
  exact h.elsewhere rfl rfl rfl

theorem State.FieldSound.make {r : Reply} (h : r.state.FieldSound) (p : PortId) : (r.make p).FieldSound := by
  unfold Reply.make
  split
  · exact quiet_fieldSound.answer _ _ _ h
  · exact h

theorem State.Field.request {L : SlotId → Prop} {s : State} (h : s.Field L) (p : PortId) (c : ReqCode) (seq : Nat)
    (rule : State → Reply) (hr : ∀ {u : State}, u.Field L → (rule u).state.FieldSound) : (s.request p c seq rule).FieldSound := by
  have hT : (s.takeInHand p c.number seq).Field L := h.elsewhere rfl rfl rfl rfl
  unfold State.request
  split
  · exact h.sound
  · split
    · exact h.sound
    · split
      · exact State.FieldSound.kickPorts (h.sound.elsewhere rfl rfl rfl)
      · refine State.FieldSound.kickPorts (State.FieldSound.make ?_ p)
        unfold State.judgeRequest
        split
        · exact hT.sound
        · split
          · exact hT.sound
          · exact hr hT

/-- A request whose rule writes store and timebase alone. -/
theorem State.Field.request_writesOnly {L : SlotId → Prop} {s : State} (h : s.Field L) (p : PortId) (c : ReqCode) (seq : Nat)
    {rule : State → Reply} (hw : WritesOnly rule) : (s.request p c seq rule).FieldSound :=
  h.request p c seq rule fun {u} hu => by
    obtain ⟨_, _, e⟩ := hw u
    rw [e]
    exact hu.sound.elsewhere rfl rfl rfl

section FieldSound
variable {s : State} (h : s.FieldSound)
include h

theorem State.FieldSound.badForm (p : PortId) (c q : Nat) : (s.badForm p c q).FieldSound := by
  unfold State.badForm
  split
  · exact h
  · split
    · exact h
    · split
      · exact State.FieldSound.kickPorts (h.elsewhere rfl rfl rfl)
      · exact State.FieldSound.kickPorts (h.elsewhere rfl rfl rfl)

theorem State.FieldSound.event {f : State → State} (hf : (f s).FieldSound) : (s.event f).FieldSound := by
  unfold State.event
  split
  · exact h
  · exact hf.kickPorts

theorem State.FieldSound.busEvent {f : State → State} (hf : (f s).FieldSound) : (s.busEvent f).FieldSound :=
  h.event (quiet_fieldSound.finish hf s)

/-- A timer of a branch, whose own change touches the branch alone. -/
theorem State.FieldSound.timerEvent (b : BranchId) (t : Nat) (f : Branch → Branch) :
    (s.timerEvent b t fun s => s.updBranch b f).FieldSound := by
  have h' : ((s.clockTo t).updBranch b f).FieldSound := h.elsewhere rfl rfl rfl
  exact h.event (quiet_fieldSound.arbitrate h' b)

theorem State.FieldSound.onOrder (b : BranchId) (d : DropId) {f : State → Order → Nat → State}
    (hf : ∀ o l, (s.branch b).bus = some { call := .entry (.order o), left := l } → (f s o l).FieldSound) :
    (s.onOrder b d f).FieldSound := by
  unfold State.onOrder
  split
  · rename_i o l hb
    split
    · exact h.busEvent (hf o l hb)
    · exact h
  · exact h

/-! ### The rules of the branches -/

theorem State.FieldSound.takeBranchRule (n : Nat) : (takeBranchRule n s).state.FieldSound := by
  unfold Machine.takeBranchRule
  repeat' split
  all_goals dsimp only [State.reply, State.deferred]
  all_goals with_reducible first | exact h | skip
  exact quiet_fieldSound.arbitrate (s := s.updBranch _ _) (h.elsewhere rfl rfl rfl) _

theorem State.FieldSound.giveBranchRule (n : Nat) : (giveBranchRule n s).state.FieldSound := by
  unfold Machine.giveBranchRule
  repeat' split
  all_goals dsimp only [State.reply]
  all_goals with_reducible first | exact h | skip
  exact quiet_fieldSound.causeScan (quiet_fieldSound.arbitrate (s := s.updBranch _ _) (h.elsewhere rfl rfl rfl) _)

theorem State.FieldSound.directFrameRule (a b : Nat) (l : List Byte) : (directFrameRule a b l s).state.FieldSound := by
  unfold Machine.directFrameRule
  repeat' split
  all_goals dsimp only [State.reply, State.deferred]
  all_goals with_reducible first | exact h | skip
  exact quiet_fieldSound.arbitrate (s := s.updBranch _ _) (h.elsewhere rfl rfl rfl) _

theorem State.FieldSound.censusRule : (censusRule s).state.FieldSound := by
  unfold Machine.censusRule
  repeat' split
  all_goals dsimp only [State.reply, State.deferred]
  all_goals with_reducible first | exact h | exact quiet_fieldSound.runBuses (quiet_fieldSound.beginCensus h _)

/-! ### The rules that touch neither slot nor cell nor segment -/

theorem State.FieldSound.streamPositionsRule (a b : Nat) : (streamPositionsRule a b s).state.FieldSound := by
  unfold Machine.streamPositionsRule
  repeat' split
  all_goals exact h.elsewhere rfl rfl rfl
theorem State.FieldSound.streamArmRule (a b : Nat) : (streamArmRule a b s).state.FieldSound := by
  unfold Machine.streamArmRule
  split
  all_goals exact h.elsewhere rfl rfl rfl
theorem State.FieldSound.streamStopRule : (streamStopRule s).state.FieldSound := by
  unfold Machine.streamStopRule
  dsimp only
  split
  all_goals exact h.elsewhere rfl rfl rfl
theorem State.FieldSound.readSenseRule (n : Nat) : (readSenseRule n s).state.FieldSound := by
  unfold Machine.readSenseRule
  dsimp only
  repeat' split
  all_goals exact h.elsewhere rfl rfl rfl
theorem State.FieldSound.clearChangeRule (n : Nat) : (clearChangeRule n s).state.FieldSound := by
  unfold Machine.clearChangeRule
  split
  all_goals exact h.elsewhere rfl rfl rfl
theorem State.FieldSound.setSenseWatchRule (n : Nat) (w : Byte) : (setSenseWatchRule n w s).state.FieldSound := by
  unfold Machine.setSenseWatchRule
  split
  all_goals exact h.elsewhere rfl rfl rfl
end FieldSound

/-! ### Resets -/

theorem Table.items_eq {n : Nat} {α : Type} (t : Table n α) : t.items = (List.finRange n).map t.get := by
  apply List.ext_getElem
  · simp [t.size]
  · intro i h1 h2
    simp [Table.get]

/-- The patrol sets that a cell is a member of, counted over the slots. -/
theorem membership_eq (t : Table 96 (Option (List CellId))) (c : CellId) :
    membership t c = allSlots.countP fun n => decide (c ∈ (t.get n).getD []) := by
  have hm : ∀ o, memberOf c o = decide (c ∈ o.getD []) := by
    intro o
    cases o <;> simp [memberOf]
  rw [membership, ← List.countP_eq_length_filter, Table.items_eq, List.countP_map]
  exact List.countP_congr fun n _ => by simp [hm]

theorem State.slot_resetEvent (s : State) (b : Bool) (n : SlotId) : (s.resetEvent b).slot n =
    slotAtReset ((loadedImage s.store).patrol.get n) ((loadedImage s.store).retired.get n) := by
  simp [State.slot, State.resetEvent, slotsAtReset, Table.get, allSlots]

/-- A slot right after a reset (R22): RETIRED at a footprint or ABSENT. -/
theorem slotAtReset_cases (o : Option (List CellId)) (x : Option RetiredEntry) :
    (slotAtReset o x).patrol = o.getD [] ∧ (slotAtReset o x).chain = [] ∧
      ((slotAtReset o x).state = .retired ∧ (slotAtReset o x).populated = true ∧ (slotAtReset o x).stand.known = true ∨
        (slotAtReset o x).state = .absent ∧ (slotAtReset o x).populated = false ∧ (slotAtReset o x).stand = .lost) := by
  cases x with
  | none => exact ⟨rfl, rfl, .inr ⟨rfl, rfl, rfl⟩⟩
  | some e => exact ⟨rfl, rfl, .inl ⟨rfl, rfl, rfl⟩⟩

theorem loadedImage_membership {st : Store} (h : ∀ c, membership st.image.patrol c ≤ membershipLimit) (c : CellId) :
    membership (loadedImage st).patrol c ≤ membershipLimit := by
  unfold loadedImage
  split
  · exact h c
  · have hn : (List.replicate 96 (none : Option (List CellId))).filter (memberOf c) = [] :=
      List.filter_replicate_of_neg (by simp [memberOf])
    exact (congrArg List.length hn).trans_le (Nat.zero_le _)

/-- A reset builds slots and shadows that agree, from a store within its limits (R22, R29, R41, R182). -/
theorem State.fieldSound_resetEvent (s : State) (b : Bool) (h : ∀ c, membership s.store.image.patrol c ≤ membershipLimit) :
    (s.resetEvent b).FieldSound := by
  have hslot := State.slot_resetEvent s b
  have hitems : (s.resetEvent b).slots.items = allSlots.map fun n =>
      slotAtReset ((loadedImage s.store).patrol.get n) ((loadedImage s.store).retired.get n) := rfl
  have hpool : ∀ id, (s.resetEvent b).seg id = none := fun id => by simp [State.seg, State.resetEvent]
  refine ⟨fun c => ?_, fun c => ?_, fun n hn => ?_, fun n hn => ?_, fun n hn => ?_, fun id g hg => ?_⟩
  · have hz : ((s.resetEvent b).cell c).shadow = 0 := by simp [State.cell, State.resetEvent, rebuiltCells]
    rw [hz, hitems, eq_comm, List.countP_eq_zero]
    intro sl hsl
    obtain ⟨n, -, rfl⟩ := List.mem_map.1 hsl
    obtain ⟨-, -, ⟨hr, -, -⟩ | ⟨-, hp, -⟩⟩ := slotAtReset_cases ((loadedImage s.store).patrol.get n) ((loadedImage s.store).retired.get n)
    · simp [Slot.casts, hr]
    · simp [Slot.casts, hp]
  · have hc := loadedImage_membership h c
    rw [membership_eq] at hc
    rw [hitems, List.countP_map]
    refine le_trans (le_of_eq (List.countP_congr fun n _ => ?_)) hc
    simp [(slotAtReset_cases _ _).1]
  · rw [hslot] at hn ⊢
    obtain ⟨-, hc, ⟨hr, -, -⟩ | ⟨-, hp, hl⟩⟩ := slotAtReset_cases ((loadedImage s.store).patrol.get n) ((loadedImage s.store).retired.get n)
    · rw [hr] at hn; cases hn
    · exact ⟨hp, hl, hc⟩
  · rw [hslot] at hn ⊢
    obtain ⟨-, -, ⟨-, hp, -⟩ | ⟨ha, -, -⟩⟩ := slotAtReset_cases ((loadedImage s.store).patrol.get n) ((loadedImage s.store).retired.get n)
    · exact hp
    · exact absurd ha hn
  · rw [hslot] at hn ⊢
    obtain ⟨-, hc, ⟨-, -, hk⟩ | ⟨ha, -, -⟩⟩ := slotAtReset_cases ((loadedImage s.store).patrol.get n) ((loadedImage s.store).retired.get n)
    · exact ⟨hk, hc⟩
    · rw [ha] at hn; cases hn
  · rw [hpool] at hg; cases hg

/-! ### The commands -/

theorem State.Field.borderEvent {L : SlotId → Prop} {s : State} (h : s.Field L) (k : LinkId) (x : SectorId) (b : Bool)
    {f : State → State} (hf : ∀ {u : State}, u.Field L → (f u).Field L) : (s.borderEvent k x b f).FieldSound := by
  unfold State.borderEvent
  split
  · exact h.sound
  · exact h.sound.busEvent (hf (h.greet k x)).sound

/-- Every command keeps slots and shadows in agreement. -/
theorem State.Crewed.exec {L : SlotId → Prop} {s : State} (h : s.Crewed L)
    (hm : ∀ c, membership s.store.image.patrol c ≤ membershipLimit) (c : Instr) : ∃ t, exec c s = .next t ∧ t.FieldSound := by
  have hF := h.toField
  have hS := h.sound
  cases c with
  | openBatch p seq id => exact ⟨_, rfl, hF.request p _ seq _ fun h => (h.openBatchRule id).sound⟩
  | loadSegment p seq d => exact ⟨_, rfl, hF.request p _ seq _ fun h => (h.loadSegmentRule d).sound⟩
  | commitBatch p seq id => exact ⟨_, rfl, hF.request p _ seq _ fun h => (h.commitBatchRule id).sound⟩
  | cancelOpen p seq => exact ⟨_, rfl, hF.request p _ seq _ fun h => h.cancelOpenRule.sound⟩
  | abortBatch p seq id => exact ⟨_, rfl, hF.request p _ seq _ fun h => (h.abortBatchRule id).sound⟩
  | ackLoadError p seq => exact ⟨_, rfl, hF.request p _ seq _ fun h => (h.loadError false).sound⟩
  | queryBatch p seq id => exact ⟨_, rfl, hF.request p _ seq _ fun h => Steady.queryBatchRule h.sound id⟩
  | hold p seq => exact ⟨_, rfl, hF.request p _ seq _ fun h => h.holdRule.sound⟩
  | resume p seq => exact ⟨_, rfl, hF.request p _ seq _ fun h => h.resumeRule.sound⟩
  | stop p seq => exact ⟨_, rfl, hF.request p _ seq _ fun h => h.stopRule.sound⟩
  | queryQueue p seq => exact ⟨_, rfl, hF.request p _ seq _ fun h => h.sound⟩
  | querySlot p seq slot => exact ⟨_, rfl, hF.request p _ seq _ fun h => Steady.querySlotRule h.sound slot⟩
  | clearFault p seq slot => exact ⟨_, rfl, hF.request p _ seq _ fun h => (h.clearFaultRule slot).sound⟩
  | retire p seq slot => exact ⟨_, rfl, hF.request p _ seq _ fun h => h.retireRule slot⟩
  | unretire p seq slot => exact ⟨_, rfl, hF.request p _ seq _ fun h => h.unretireRule slot⟩
  | storeRetired p seq => exact ⟨_, rfl, hF.request_writesOnly p _ seq writesOnly_storeRetired⟩
  | measure p seq slot a f l => exact ⟨_, rfl, hF.request p _ seq _ fun h => (h.measureRule slot a f l).sound⟩
  | setFootprint p seq slot l => exact ⟨_, rfl, hF.request p _ seq _ fun h => (h.setFootprintRule slot l).sound⟩
  | loadTrim p seq d => exact ⟨_, rfl, hF.request p _ seq _ fun h => (h.loadTrimRule d).sound⟩
  | streamPositions p seq a b => exact ⟨_, rfl, hF.request p _ seq _ fun h => h.sound.streamPositionsRule a b⟩
  | streamArm p seq a b => exact ⟨_, rfl, hF.request p _ seq _ fun h => h.sound.streamArmRule a b⟩
  | streamStop p seq => exact ⟨_, rfl, hF.request p _ seq _ fun h => h.sound.streamStopRule⟩
  | readSense p seq slot => exact ⟨_, rfl, hF.request p _ seq _ fun h => h.sound.readSenseRule slot⟩
  | clearChange p seq slot => exact ⟨_, rfl, hF.request p _ seq _ fun h => h.sound.clearChangeRule slot⟩
  | setSenseWatch p seq slot w => exact ⟨_, rfl, hF.request p _ seq _ fun h => h.sound.setSenseWatchRule slot w⟩
  | queryCell p seq cell => exact ⟨_, rfl, hF.request p _ seq _ fun h => Steady.queryCellRule h.sound cell⟩
  | takeBranch p seq n => exact ⟨_, rfl, hF.request p _ seq _ fun h => h.sound.takeBranchRule n⟩
  | giveBranch p seq n => exact ⟨_, rfl, hF.request p _ seq _ fun h => h.sound.giveBranchRule n⟩
  | directFrame p seq a b l => exact ⟨_, rfl, hF.request p _ seq _ fun h => h.sound.directFrameRule a b l⟩
  | census p seq => exact ⟨_, rfl, hF.request p _ seq _ fun h => h.sound.censusRule⟩
  | queryBranch p seq n => exact ⟨_, rfl, hF.request p _ seq _ fun h => Steady.queryBranchRule h.sound n⟩
  | reclaimBorder p seq n => exact ⟨_, rfl, hF.request p _ seq _ fun h => (h.reclaimBorderRule n).sound⟩
  | queryLink p seq n => exact ⟨_, rfl, hF.request p _ seq _ fun h => Steady.queryLinkRule h.sound n⟩
  | setTimebase p seq us => exact ⟨_, rfl, hF.request_writesOnly p _ seq (writesOnly_setTimebase us)⟩
  | writeStoreSectorId p seq id => exact ⟨_, rfl, hF.request_writesOnly p _ seq (writesOnly_sectorId id)⟩
  | writeStoreFixedList p seq l => exact ⟨_, rfl, hF.request_writesOnly p _ seq (writesOnly_fixedList l)⟩
  | writeStorePatrolSet p seq n l => exact ⟨_, rfl, hF.request_writesOnly p _ seq (writesOnly_patrolSet n l)⟩
  | writeStoreBorderEntry p seq n e => exact ⟨_, rfl, hF.request_writesOnly p _ seq (writesOnly_borderEntry n e)⟩
  | writeStoreRetiredEntry p seq n e => exact ⟨_, rfl, hF.request_writesOnly p _ seq (writesOnly_retiredEntry n e)⟩
  | writeStoreClear p seq => exact ⟨_, rfl, hF.request_writesOnly p _ seq writesOnly_clear⟩
  | resetSector p seq => exact ⟨_, rfl, hF.request p _ seq _ fun h => h.sound⟩
  | subscribe p seq kinds => exact ⟨_, rfl, hF.request p _ seq _ fun h => h.sound.elsewhere rfl rfl rfl⟩
  | queryNotices p seq => exact ⟨_, rfl, hF.request p _ seq _ fun h => Steady.queryNoticesRule h.sound p⟩
  | badRequestFrame p bad =>
    cases bad
    · exact ⟨_, rfl, hS⟩
    · exact ⟨_, rfl, hS.badForm p _ _⟩
    · exact ⟨_, rfl, hF.request p _ _ _ fun h => h.sound⟩
  | portFrameSent p =>
    show ∃ t, execPortFrameSent p s = .next t ∧ t.FieldSound
    unfold execPortFrameSent
    split
    · split
      · exact ⟨_, rfl, State.fieldSound_resetEvent _ false hm⟩
      · exact ⟨_, rfl, hS.event (hS.elsewhere rfl rfl rfl)⟩
    · exact ⟨_, rfl, hS⟩
  | scan =>
    show ∃ t, execScan s = .next t ∧ t.FieldSound
    unfold execScan
    split
    · exact ⟨_, rfl, hS.busEvent hF.makeScan.sound⟩
    · exact ⟨_, rfl, hS⟩
  | ack b d => exact ⟨_, rfl, hS.onOrder b d fun _ _ _ => hS.elsewhere rfl rfl rfl⟩
  | nakBusy b d => exact ⟨_, rfl, hS.onOrder b d fun o l hb => hF.takeNak (h.onBus b o l hb) l⟩
  | status b d r =>
    show ∃ t, execStatus b d r s = .next t ∧ t.FieldSound
    unfold execStatus
    split
    · split
      · exact ⟨_, rfl, hS.busEvent (h.takeStatus b d _ r).sound⟩
      · exact ⟨_, rfl, hS⟩
    · exact ⟨_, rfl, hS⟩
  | roll b d =>
    show ∃ t, execRoll b d s = .next t ∧ t.FieldSound
    unfold execRoll
    split
    · split
      · exact ⟨_, rfl, hS.busEvent (((hF.freeBus b).found (slotOf b d)).elsewhere rfl rfl rfl)⟩
      · exact ⟨_, rfl, hS⟩
    · exact ⟨_, rfl, hS⟩
  | branchFrameDiscarded b => exact ⟨_, rfl, hS⟩
  | replyWindowEnd b received =>
    show ∃ t, execReplyWindowEnd b received s = .next t ∧ t.FieldSound
    unfold execReplyWindowEnd
    split
    · have h' : (s.clockTo ((s.branch b).callAt + windowTime)).Crewed L := h.elsewhere rfl rfl rfl rfl
      exact ⟨_, rfl, hS.busEvent (h'.windowEnd b received)⟩
    · exact ⟨_, rfl, hS⟩
  | settleEnd b d =>
    show ∃ t, execSettleEnd b d s = .next t ∧ t.FieldSound
    unfold execSettleEnd
    dsimp only
    split
    · exact ⟨_, rfl, hS.timerEvent b _ _⟩
    · exact ⟨_, rfl, hS⟩
  | nakBusyWaitEnd b d =>
    show ∃ t, execNakBusyWaitEnd b d s = .next t ∧ t.FieldSound
    unfold execNakBusyWaitEnd
    split
    · exact ⟨_, rfl, hS.timerEvent b _ _⟩
    · exact ⟨_, rfl, hS⟩
  | statusCallDue b d =>
    show ∃ t, execStatusCallDue b d s = .next t ∧ t.FieldSound
    unfold execStatusCallDue
    split
    · split
      · exact ⟨_, rfl, hS⟩
      · exact ⟨_, rfl, hS.timerEvent b _ _⟩
    · exact ⟨_, rfl, hS⟩
  | stallLimit b d =>
    show ∃ t, execStallLimit b d s = .next t ∧ t.FieldSound
    unfold execStallLimit
    split
    · split
      · exact ⟨_, rfl, hS⟩
      · exact ⟨_, rfl, hS.timerEvent b _ _⟩
    · exact ⟨_, rfl, hS⟩
  | idleCallDue b d =>
    show ∃ t, execIdleCallDue b d s = .next t ∧ t.FieldSound
    unfold execIdleCallDue
    dsimp only
    split
    · exact ⟨_, rfl, hS.timerEvent b _ _⟩
    · exact ⟨_, rfl, hS⟩
  | dwellTimerEnd n =>
    show ∃ t, execDwellTimerEnd n s = .next t ∧ t.FieldSound
    unfold execDwellTimerEnd
    split
    · exact ⟨_, rfl, hS.busEvent (((hF.clockTo _).endDwell n).judge n).endBatches.sound⟩
    · exact ⟨_, rfl, hS⟩
  | backoffEnd n =>
    show ∃ t, execBackoffEnd n s = .next t ∧ t.FieldSound
    unfold execBackoffEnd
    split
    · exact ⟨_, rfl, hS.event ((hF.clockTo _).updEntry n _).causeScan.sound⟩
    · exact ⟨_, rfl, hS⟩
  | claimAnswerTimeout k =>
    show ∃ t, execClaimAnswerTimeout k s = .next t ∧ t.FieldSound
    unfold execClaimAnswerTimeout
    split
    · exact ⟨_, rfl, hS.busEvent (((hF.clockTo _).timeOutClaim k).countTimeout k).sound⟩
    · exact ⟨_, rfl, hS⟩
  | syncTimeout k =>
    show ∃ t, execSyncTimeout k s = .next t ∧ t.FieldSound
    unfold execSyncTimeout
    split
    · exact ⟨_, rfl, hS.busEvent (((hF.clockTo _).countTimeout k).updLink k _ |>.updLink k _).sound⟩
    · exact ⟨_, rfl, hS⟩
  | claim k x n l =>
    show ∃ t, execClaim k x n l s = .next t ∧ t.FieldSound
    unfold execClaim
    split
    · exact ⟨_, rfl, hF.borderEvent k x _ fun h => h.takeClaim k n l⟩
    · exact ⟨_, rfl, hS⟩
  | grant k x n => exact ⟨_, exec_grant k x n s, hF.borderEvent k x _ fun h => h.grantFrame k n⟩
  | refuse k x n reason =>
    refine ⟨_, rfl, hF.borderEvent k x _ fun h => ?_⟩
    split
    · split
      · exact ((h.endClaim k _ _).backOff _).causeScan
      · exact h
    · exact h
  | release k x l =>
    show ∃ t, execRelease k x l s = .next t ∧ t.FieldSound
    unfold execRelease
    split
    · exact ⟨_, rfl, hF.borderEvent k x _ fun h => h.takeRelease k l⟩
    · exact ⟨_, rfl, hS⟩
  | sync k x => exact ⟨_, rfl, hF.borderEvent k x _ fun h => (h.report k).timeOutClaim k⟩
  | syncReport k x a b =>
    show ∃ t, execSyncReport k x a b s = .next t ∧ t.FieldSound
    unfold execSyncReport
    split
    · exact ⟨_, rfl, hF.borderEvent k x _ fun h => h.takeReport k a b⟩
    · exact ⟨_, rfl, hS⟩
  | borderFrameDiscarded k => exact ⟨_, rfl, hS⟩
  | stopLineAssert =>
    have h' : State.Field L { s with stopLine := true } := hF.elsewhere rfl rfl rfl rfl
    exact ⟨_, rfl, h'.sound.event (h'.takeStop.finish _).sound⟩
  | stopLineRelease => exact ⟨_, rfl, hS.elsewhere rfl rfl rfl⟩
  | powerOn x => exact ⟨_, rfl, State.fieldSound_resetEvent _ true hm⟩
  | resetLineAssert => exact ⟨_, rfl, hS.elsewhere rfl rfl rfl⟩
  | resetLineRelease x =>
    show ∃ t, execResetLineRelease x s = .next t ∧ t.FieldSound
    unfold execResetLineRelease
    split
    · exact ⟨_, rfl, State.fieldSound_resetEvent _ false hm⟩
    · exact ⟨_, rfl, hS⟩
  | loadPhaseEnd =>
    show ∃ t, execLoadPhaseEnd s = .next t ∧ t.FieldSound
    unfold execLoadPhaseEnd
    split
    · refine ⟨_, rfl, hS.event (State.Field.finish (L := L) ?_ s).sound⟩
      exact foldl_keeps (P := State.Field L) (fun _ _ h => h.requestHalt _) (hF.elsewhere rfl rfl rfl rfl)
    · exact ⟨_, rfl, hS⟩

/-- Every step keeps slots and shadows in agreement (R24, R29). -/
theorem State.FieldSound.step {s t : State} (h : s.FieldSound) (hl : s.Ledger) (hs : StoreSound s.store.image)
    (ht : step s = .next t) : t.FieldSound := by
  unfold Machine.step at ht
  split at ht
  · cases ht
    exact h.elsewhere rfl rfl rfl
  · rename_i c rest _
    have hc := (hl.crewed h).elsewhere (t := { s with pending := rest }) rfl rfl rfl rfl
    obtain ⟨u, hu, hf⟩ := hc.exec hs.members c
    rw [hu] at ht
    cases ht
    exact hf

/-- A cell's shadow counts slots whose patrol set has the cell, of which there are 7 at most (R24, R182). -/
theorem State.FieldSound.shadow_le {s : State} (h : s.FieldSound) (c : CellId) : (s.cell c).shadow ≤ 7 := by
  rw [h.shadow c]
  refine le_trans (List.countP_mono_left fun sl _ hc => ?_) (h.patrols c)
  simp only [Slot.casts, Bool.and_eq_true] at hc
  exact hc.2

/-! ### What a scan leaves -/

/-- From `s` to `t` every HELD cell kept its owner, and no robot and no chain changed. -/
structure State.Scanned (s t : State) : Prop where
  held : ∀ c n, (s.cell c).owner = .held n → (t.cell c).owner = .held n
  stand : ∀ n, (t.slot n).stand = (s.slot n).stand
  chain : ∀ n, (t.slot n).chain = (s.slot n).chain

theorem quiet_scanned (s : State) : Quiet (State.Scanned s) where
  seg _ _ _ h := ⟨h.held, h.stand, h.chain⟩
  free _ h := ⟨h.held, h.stand, h.chain⟩
  scanDue _ h := ⟨h.held, h.stand, h.chain⟩
  haltOut _ h := ⟨h.held, h.stand, h.chain⟩
  branches _ _ h := ⟨h.held, h.stand, h.chain⟩
  census _ h := ⟨h.held, h.stand, h.chain⟩
  links _ _ h := ⟨h.held, h.stand, h.chain⟩
  phase _ h := ⟨h.held, h.stand, h.chain⟩
  sector _ _ _ h := ⟨h.held, h.stand, h.chain⟩
  raise _ h := ⟨h.held, h.stand, h.chain⟩
  answer _ _ _ h := ⟨h.held, h.stand, h.chain⟩

section Scanned
variable {s t : State} (h : s.Scanned t)
include h

theorem State.Scanned.elsewhere {u : State} (hs : u.slots = t.slots) (hc : u.cells = t.cells) : s.Scanned u :=
  ⟨fun c n e => by simp only [State.cell, hc]; exact h.held c n e, fun n => by simp only [State.slot, hs]; exact h.stand n,
    fun n => by simp only [State.slot, hs]; exact h.chain n⟩

theorem State.Scanned.updCells {f : Nat → Cell → Cell}
    (hf : ∀ c n, (t.cell c).owner = .held n → (f c.val (t.cell c)).owner = .held n) : s.Scanned (t.updCells f) :=
  ⟨fun c n e => by rw [State.cell_updCells]; exact hf c n (h.held c n e), h.stand, h.chain⟩

theorem State.Scanned.updSlot (n : SlotId) {f : Slot → Slot} (hs : ∀ sl, (f sl).stand = sl.stand)
    (hc : ∀ sl, (f sl).chain = sl.chain) : s.Scanned (t.updSlot n f) := by
  refine ⟨h.held, fun m => ?_, fun m => ?_⟩ <;> by_cases e : n = m
  · subst e; rw [State.slot_updSlot_self, hs]; exact h.stand n
  · rw [State.slot_updSlot_ne _ _ e]; exact h.stand m
  · subst e; rw [State.slot_updSlot_self, hc]; exact h.chain n
  · rw [State.slot_updSlot_ne _ _ e]; exact h.chain m

theorem State.Scanned.withdrawClaim (n : SlotId) : s.Scanned (t.withdrawClaim n) := by
  unfold State.withdrawClaim
  split
  · split
    · have h' : s.Scanned (t.freePending n) := h.updCells fun c m e => by simp [e]
      dsimp only
      split
      · exact h'.elsewhere rfl rfl
      · exact h'.elsewhere rfl rfl
    · exact h
  · exact h

theorem State.Scanned.queue (x : List QEntry) : s.Scanned { t with queue := x } := h.elsewhere rfl rfl

theorem State.Scanned.leaveQueue (n : SlotId) : s.Scanned (t.leaveQueue n) :=
  ((h.withdrawClaim n).queue _).updSlot n (fun sl => by split <;> rfl) fun sl => by split <;> rfl

theorem State.Scanned.joinQueue (n : SlotId) : s.Scanned (t.joinQueue n) :=
  ((h.queue (t.queue ++ [QEntry.fresh n])).updSlot n (f := fun sl => { sl with state := sl.state.joined }) (fun _ => rfl)
    fun _ => rfl).elsewhere rfl rfl

theorem State.Scanned.judge (n : SlotId) : s.Scanned (t.judge n) := by
  unfold State.judge
  split
  · split
    · exact h
    · exact h.leaveQueue n
  · split
    · exact h.joinQueue n
    · exact h

theorem State.Scanned.dispatch (n : SlotId) (id : SegId) : s.Scanned (t.dispatch n id) := by
  unfold State.dispatch
  split
  · exact h
  · rename_i g _
    have h' := h.updSlot n (f := fun sl => { sl with state := g.body.workState }) (fun _ => rfl) fun _ => rfl
    dsimp only
    split
    · exact h'.elsewhere rfl rfl
    · exact h'.elsewhere rfl rfl

omit h in
theorem State.held_of_grantable {n m : SlotId} {l : List CellId} (hg : t.grantable n l = true) {c : CellId} (hc : c ∈ l)
    (hm : (t.cell c).owner = .held m) : m = n := by
  simp only [State.grantable, Bool.and_eq_true, List.all_eq_true] at hg
  have := hg.1.2 c hc
  simp only [State.cellPasses, hm, Bool.and_eq_true, decide_eq_true_eq] at this
  exact this.1

/-- A grant takes its sweep's cells from no slot that holds them (R30, R78). -/
theorem State.Scanned.award {n : SlotId} (id : SegId) (g : Segment) (hg : t.grantable n (t.sweepOf n g) = true) :
    s.Scanned (t.award n id g) := by
  unfold State.award
  dsimp only
  have h1 : s.Scanned (t.takeCells n (t.sweepOf n g)) := by
    refine h.updCells fun c m e => ?_
    split
    · rename_i hc
      rw [State.held_of_grantable hg ((named_iff c _).1 hc) e]
    · exact e
  have h2 : s.Scanned ((t.takeCells n (t.sweepOf n g)).updSeg id fun g => { g with state := .granted, continuation := false }) :=
    h1.elsewhere rfl rfl
  split
  · exact (h2.queue _).dispatch n id
  · exact h2.queue _

theorem State.Scanned.makeClaim (n : SlotId) (id : SegId) (k : LinkId) (l : List CellId) : s.Scanned (t.makeClaim n id k l) := by
  have h' : s.Scanned (t.updCells fun i r => if named i l ∧ r.owner = .free then { r with owner := .pending n } else r) :=
    h.updCells fun c m e => by simp [e]
  exact h'.elsewhere rfl rfl

theorem State.Scanned.judgeEntry (n : SlotId) : s.Scanned (t.judgeEntry n).1 := by
  unfold State.judgeEntry
  dsimp only
  repeat' split
  all_goals first
    | exact h
    | exact h.award _ _ (by assumption)
    | exact h.makeClaim _ _ _ _

omit h in
theorem State.Scanned.scanEntries {t : State} (h : s.Scanned t) (l : List SlotId) : s.Scanned (t.scanEntries l).1 := by
  induction l generalizing t with
  | nil => exact h
  | cons n l ih => exact ih (h.judgeEntry n)

theorem State.Scanned.makeScan : s.Scanned t.makeScan :=
  foldl_keeps (P := State.Scanned s) (fun _ _ h => h.judge _)
    (foldl_keeps (P := State.Scanned s) (fun _ _ h => h.elsewhere rfl rfl)
      (State.Scanned.scanEntries (t := { t with scanDue := false }) (h.elsewhere rfl rfl) _))

end Scanned

theorem State.Scanned.event {s : State} {f : State → State} (hr : s.Scanned s) (hf : s.Scanned (f s)) : s.Scanned (s.event f) := by
  unfold State.event
  split
  · exact hr
  · obtain ⟨_, _, e⟩ := (f s).kickPorts_eq
    rw [e]
    exact hf.elsewhere rfl rfl

/-- A scan takes no HELD cell from its slot and moves no robot. -/
theorem State.scanned_scan {s t : State} (ht : exec .scan s = .next t) : s.Scanned t := by
  have hr : s.Scanned s := ⟨fun _ _ h => h, fun _ => rfl, fun _ => rfl⟩
  change execScan s = .next t at ht
  unfold execScan at ht
  split at ht
  · cases ht
    exact hr.event ((quiet_scanned s).finish hr.makeScan s)
  · cases ht
    exact hr

/-- Settles O50: a scan by `State.Scanned`, a step by the case of its command, the bound by the patrol sets that have the cell. -/
theorem scanKeepsHeldCells : Obligations.ScanKeepsHeldCells :=
  ⟨fun _ _ ht => ⟨(State.scanned_scan ht).held, fun n => ⟨(State.scanned_scan ht).stand n, (State.scanned_scan ht).chain n⟩⟩,
    fun _ _ hl hs h ht => h.step hl hs ht, fun _ c h => h.shadow_le c⟩

end Sys2Proof.Machine
end


section
/-! SUPPORT. Frames of a border link (R117): what their event leaves, and the settings that no event touches. -/

namespace Sys2Proof.Machine

/-! ### Settings -/

/-- Store, working lists, straps, lines, timebase and waiting commands stay through every change that a `Steady` property admits. -/
theorem steady_sameSetting (s : State) : Steady (State.SameSetting s) where
  seg _ _ _ h := { h with store := h.store }
  free _ h := { h with store := h.store }
  scanDue _ h := { h with store := h.store }
  haltOut _ h := { h with store := h.store }
  branches _ _ h := { h with store := h.store }
  census _ h := { h with store := h.store }
  links _ _ h := { h with store := h.store }
  phase _ h := { h with store := h.store }
  sector _ _ _ h := { h with store := h.store }
  raise _ h := { h with store := h.store }
  answer _ _ _ h := { h with store := h.store }
  updSlot _ _ _ h := { h with store := h.store }
  updCells _ h := { h with store := h.store }
  takeCells _ _ _ h := { h with store := h.store }
  close _ h := { h with store := h.store }
  queue _ _ h := { h with store := h.store }
  joinQueue _ _ h := { h with store := h.store }
  dwell _ h := { h with store := h.store }
  startStop _ h := { h with store := h.store }
  anyBranch _ _ h := { h with store := h.store }
  anyLink _ _ h := { h with store := h.store }
  now _ h := { h with store := h.store }
  enter _ _ _ h := { h with store := h.store }
  count _ _ h := { h with store := h.store }
  endBatches {s} h := by
    obtain ⟨_, _, _, _, _, e⟩ := s.endBatches_eq
    rw [e]
    exact { h with store := h.store }
  moveStand n st h := by
    unfold State.moveStand
    dsimp only
    split
    · exact { h with store := h.store }
    · split <;> exact { h with store := h.store }
  fault _ _ h := { h with store := h.store }
  grant _ h := { h with store := h.store }
  anySlot _ _ _ h := { h with store := h.store }
  pool _ h := { h with store := h.store }
  senses _ h := { h with store := h.store }
  batches _ h := { h with store := h.store }
  loadError _ h := { h with store := h.store }
  retired _ h := { h with store := h.store }
  stream _ h := { h with store := h.store }
  armed _ h := { h with store := h.store }
  takeInHand _ _ _ h := { h with store := h.store }
  refuseBusy _ _ _ h := { h with store := h.store }
  subscribe _ _ h := { h with store := h.store }
  beginFrame {s} p h := by
    obtain ⟨_, _, e⟩ := s.beginFrame_eq p
    rw [e]
    exact { h with store := h.store }
  lend _ _ _ h := { h with store := h.store }
  lineFree _ _ h := { h with store := h.store }

theorem State.SameSetting.refl (s : State) : s.SameSetting s := ⟨rfl, rfl, rfl, rfl, rfl, rfl, rfl, rfl, rfl⟩

theorem State.sameSetting_of_exec {c : Instr} {s t : State} (hc : writesSetting c = false) (ht : exec c s = .next t) :
    s.SameSetting t := by
  obtain ⟨u, hu, h⟩ := Steady.exec (steady_sameSetting s) c hc (State.SameSetting.refl s)
  rw [hu] at ht
  cases ht
  exact h

/-! ### The greeting -/

/-- `v` is `s` when a valid frame's sender has been adopted on link `k` (R117, R119): the link alone has changed, its notice apart. -/
structure State.Greeted (s v : State) (k : LinkId) (x : SectorId) : Prop where
  rest : v = { s with links := v.links, ports := v.ports }
  link : v.link k = { s.link k with neighbour := some x, timeouts := 0, state := (v.link k).state }

theorem State.greeted_greet (s : State) (k : LinkId) (x : SectorId) : s.Greeted (s.greet k x) k x := by
  unfold State.greet
  dsimp only
  split
  · refine ⟨rfl, ?_⟩
    simp [State.enterLink, State.updLink, State.link, State.raise]
  · refine ⟨rfl, ?_⟩
    simp

section Greeted
variable {s v : State} {k : LinkId} {x : SectorId} (h : s.Greeted v k x)
include h

theorem State.Greeted.slots : v.slots = s.slots := by rw [h.rest]
theorem State.Greeted.cells : v.cells = s.cells := by rw [h.rest]
theorem State.Greeted.queue : v.queue = s.queue := by rw [h.rest]
theorem State.Greeted.border : v.border = s.border := by rw [h.rest]
theorem State.Greeted.sectorId : v.sectorId = s.sectorId := by rw [h.rest]
theorem State.Greeted.now : v.now = s.now := by rw [h.rest]
theorem State.Greeted.cell (c : CellId) : v.cell c = s.cell c := by rw [h.rest]; rfl
theorem State.Greeted.cellOn (j : LinkId) : v.cellOn j = s.cellOn j := by rw [h.rest]; rfl
theorem State.Greeted.cellsOn (j : LinkId) : v.cellsOn j = s.cellsOn j := by rw [h.rest]; rfl
theorem State.Greeted.borderOf : v.borderOf = s.borderOf := by rw [h.rest]; rfl
theorem State.Greeted.sent : (v.link k).sent = (s.link k).sent := by rw [h.link]

end Greeted

/-! ### Grants that stay -/

/-- Every segment granted in `s` is so in `t`. -/
def State.GrantsStay (s t : State) : Prop := ∀ id, s.Granted id → t.Granted id

theorem State.GrantsStay.refl (s : State) : s.GrantsStay s := fun _ h => h
theorem State.GrantsStay.trans {s t u : State} (h : s.GrantsStay t) (k : t.GrantsStay u) : s.GrantsStay u := fun id hid => k id (h id hid)
theorem State.GrantsStay.of_pool {s t : State} (h : t.pool = s.pool) : s.GrantsStay t := by
  intro id hid
  simpa only [State.Granted, State.seg, h] using hid
theorem State.GrantsStay.foldl {α : Type} {f : State → α → State} (hf : ∀ (s : State) a, s.GrantsStay (f s a)) (l : List α) (s : State) :
    s.GrantsStay (l.foldl f s) := by
  induction l generalizing s with
  | nil => exact .refl s
  | cons a l ih => exact (hf s a).trans (ih _)

/-- A segment becomes ACTIVE or GRANTED, or keeps its state. -/
theorem State.GrantsStay.updSeg (s : State) (id : SegId) {f : Segment → Segment}
    (hf : ∀ g, (g.state = .granted ∨ g.state = .active) → ((f g).state = .granted ∨ (f g).state = .active)) :
    s.GrantsStay (s.updSeg id f) := by
  rintro i ⟨g, hg, hs⟩
  by_cases e : id = i
  · subst e
    exact ⟨f g, by rw [State.seg_updSeg_self, hg]; rfl, hf g hs⟩
  · exact ⟨g, by rw [State.seg_updSeg_ne _ _ e]; exact hg, hs⟩

theorem State.fillPlace_pool (s : State) (b : BranchId) : (s.fillPlace b).pool = s.pool := by
  unfold State.fillPlace
  dsimp only
  repeat' split
  all_goals rfl

theorem State.fillPlaces_grants (s : State) (b : BranchId) : s.GrantsStay (s.fillPlaces b) :=
  .foldl (fun s _ => .of_pool (s.fillPlace_pool b)) _ s

theorem State.sendOrder_grants (s : State) (b : BranchId) (o : Order) : s.GrantsStay (s.sendOrder b o) := by
  unfold State.sendOrder
  split
  · exact .of_pool rfl
  · have h1 : s.GrantsStay (s.updSeg o.seg fun g => { g with state := .active, continuation := false }) :=
      .updSeg s _ fun _ _ => .inr rfl
    dsimp only
    split
    · exact h1.trans (.updSeg _ _ fun _ h => h)
    · exact h1

theorem State.sendEntry_grants (s : State) (b : BranchId) (e : Entry) : s.GrantsStay (s.sendEntry b e) := by
  unfold State.sendEntry
  split
  · exact s.sendOrder_grants b _
  all_goals exact .of_pool rfl

theorem State.haltReported_pool (s : State) (b : BranchId) : (s.haltReported b).pool = s.pool := by
  unfold State.haltReported
  split
  · dsimp only
    split <;> rfl
  · rfl

theorem State.finishHalt_pool (s : State) (b : BranchId) : (s.finishHalt b).pool = s.pool := by
  unfold State.finishHalt
  dsimp only
  split
  · exact State.haltReported_pool _ b
  · rfl

theorem State.startBus_grants (s : State) (b : BranchId) : s.GrantsStay (s.startBus b) := by
  unfold State.startBus
  dsimp only
  split
  · exact .refl s
  · split
    · exact .of_pool (State.finishHalt_pool _ b)
    · split
      · exact State.sendEntry_grants (s.updBranch b _) b _
      · exact .refl s

theorem State.answerService_pool (s : State) (r : Result) (f : AnswerFields) : (s.answerService r f).pool = s.pool := by
  unfold State.answerService
  split <;> rfl

theorem State.takeOver_pool (s : State) (b : BranchId) : (s.takeOver b).pool = s.pool := by
  unfold State.takeOver
  split
  · exact State.answerService_pool _ _ _
  · rfl

theorem State.arbitrate_grants (s : State) (b : BranchId) : s.GrantsStay (s.arbitrate b) :=
  (((s.fillPlaces_grants b).trans (State.startBus_grants _ b)).trans (State.fillPlaces_grants _ b)).trans
    (.of_pool (State.takeOver_pool _ b))

theorem State.arbitrateAll_grants (s : State) : s.GrantsStay s.arbitrateAll := .foldl State.arbitrate_grants _ s

theorem State.endStartUp_pool (s : State) : s.endStartUp.pool = s.pool := by
  unfold State.endStartUp
  dsimp only
  split <;> rfl

theorem State.advance_grants (s : State) : s.GrantsStay s.advance := by
  unfold State.advance
  split
  · exact State.arbitrateAll_grants (State.beginCensus { s with phase := .census } .startup)
  · split
    · exact (State.GrantsStay.foldl (fun s k => .of_pool (t := s.sendSync k) rfl) allLinks { s with census := .none, phase := .sync }).trans
        (.of_pool (State.endStartUp_pool _))
    · split
      · exact .of_pool (State.answerService_pool _ _ _)
      · exact .refl s

theorem State.settleEvent_pool (s old : State) : (s.settleEvent old).pool = s.pool := by
  have h : (s.flushReleases old).pool = s.pool := by
    refine foldl_keeps (P := fun t : State => t.pool = s.pool) (fun t k ht => ?_) rfl
    unfold State.sendRelease
    split <;> exact ht
  exact h

theorem State.finish_grants (s old : State) : s.GrantsStay (s.finish old) :=
  (s.arbitrateAll_grants.trans (State.advance_grants _)).trans (.of_pool (State.settleEvent_pool _ old))

/-! ### What the end of an event leaves -/

/-- From `s`, an event's work done, to `t`, its end: the buses have run on and the ports have begun their frames. -/
structure State.Leaves (s t : State) : Prop where
  slots : t.slots = s.slots
  cells : t.cells = s.cells
  queue : t.queue = s.queue
  dwell : t.dwell = s.dwell
  batches : t.batches = s.batches
  loadError : t.loadError = s.loadError
  senses : t.senses = s.senses
  retired : t.retired = s.retired
  armed : t.armed = s.armed
  links : ∀ k, Sends (s.link k) (t.link k)
  granted : s.GrantsStay t

theorem State.leaves_end (s old : State) : s.Leaves (s.finish old).kickPorts := by
  obtain ⟨_, _, e⟩ := (s.finish old).kickPorts_eq
  have h := s.rests_finish old
  have hg := s.finish_grants old
  rw [e]
  generalize s.finish old = u at h hg ⊢
  exact ⟨h.slots, h.cells, h.queue, h.dwell, h.batches, h.loadError, h.senses, h.retired, h.armed, h.links, hg⟩

/-- A border frame that is taken. -/
theorem State.borderEvent_leaves {s : State} (k : LinkId) (x : SectorId) (b : Bool) (f : State → State) (hr : s.resetHeld = false)
    (hp : s.phase ≠ .load) (ha : s.accepts k x b = true) : (f (s.greet k x)).Leaves (s.borderEvent k x b f) := by
  unfold State.borderEvent State.busEvent State.event
  simp only [hp, ha, hr, decide_false, Bool.not_true, Bool.or_false, Bool.false_eq_true, if_false]
  exact State.leaves_end _ _

theorem State.Leaves.cell {s t : State} (h : s.Leaves t) (c : CellId) : t.cell c = s.cell c :=
  congrArg (fun x : Table 2048 Cell => x.get c) h.cells

/-- What the end of an event leaves of a link. -/
theorem Sends.fields {a b : Link} (h : Sends a b) : b.neighbour = a.neighbour ∧ b.timeouts = a.timeouts ∧ b.claim = a.claim ∧
    b.lastEnd = a.lastEnd ∧ ∃ l, b.sent = a.sent ++ l := by
  have hr := h.rest
  simp only [Link.mk.injEq] at hr
  obtain ⟨-, -, hn, ht, -, hc, -, -, he, -⟩ := hr
  obtain ⟨l, hl⟩ := h.sent
  exact ⟨hn, ht, hc, he, l, hl.symm⟩

/-! ### CLAIM (R38, R129) -/

section
variable {s : State} {k : LinkId} {n : Byte} {cells : List Nat}

theorem State.takeClaim_repeated (h : ¬ cells.Nodup) : s.takeClaim k n cells = s.send k (.refuse n .busy) := if_pos h

theorem State.takeClaim_grant (hd : cells.Nodup) (h : cells.all (s.lendable k) = true) :
    s.takeClaim k n cells = (s.lend k (s.cellsOn k cells)).send k (.grant n) := by
  rw [State.takeClaim, if_neg (not_not.2 hd), if_pos h]

theorem State.takeClaim_refuse (hd : cells.Nodup) (h : cells.all (s.lendable k) = false) :
    s.takeClaim k n cells = s.send k (.refuse n (if cells.any (s.blockedOn k) then .blocked else .busy)) := by
  rw [State.takeClaim, if_neg (not_not.2 hd), if_neg (by simp [h])]

theorem State.lendable_iff {i : Nat} : s.lendable k i = true ↔
    ∃ c e, s.cellOn k i = some c ∧ s.borderOf c.val = some e ∧ e.home = .here ∧ (s.cell c).owner = .free ∧ (s.cell c).shadow = 0 := by
  unfold State.lendable
  cases s.cellOn k i with
  | none => simp
  | some c => cases he : s.borderOf c.val <;> simp [he, and_assoc]

theorem State.blockedOn_iff {i : Nat} : s.blockedOn k i = true ↔ ∃ c, s.cellOn k i = some c ∧ (s.cell c).owner = .blocked k := by
  unfold State.blockedOn
  cases s.cellOn k i <;> simp

theorem State.takeClaim_blocked (hd : cells.Nodup) (h : ∃ i ∈ cells, ∃ c, s.cellOn k i = some c ∧ (s.cell c).owner = .blocked k) :
    s.takeClaim k n cells = s.send k (.refuse n .blocked) := by
  obtain ⟨i, hi, c, hc, ho⟩ := h
  have hany : cells.any (s.blockedOn k) = true := List.any_eq_true.2 ⟨i, hi, State.blockedOn_iff.2 ⟨c, hc, ho⟩⟩
  have hall : cells.all (s.lendable k) = false := by
    refine List.all_eq_false.2 ⟨i, hi, fun hl => ?_⟩
    obtain ⟨c', -, hc', -, -, hf, -⟩ := State.lendable_iff.1 hl
    rw [hc] at hc'
    cases hc'
    rw [ho] at hf
    cases hf
  rw [State.takeClaim_refuse hd hall, if_pos hany]

theorem State.takeClaim_busy (hd : cells.Nodup) (hb : ∀ i ∈ cells, ∀ c, s.cellOn k i = some c → (s.cell c).owner ≠ .blocked k)
    (h : ∃ i ∈ cells, ∀ c, s.cellOn k i = some c → (s.cell c).owner ≠ .free ∨ (s.cell c).shadow ≠ 0) :
    s.takeClaim k n cells = s.send k (.refuse n .busy) := by
  obtain ⟨i, hi, hc⟩ := h
  have hany : ¬ cells.any (s.blockedOn k) = true := fun hany => by
    obtain ⟨j, hj, hb'⟩ := List.any_eq_true.1 hany
    obtain ⟨c, hcj, ho⟩ := State.blockedOn_iff.1 hb'
    exact hb j hj c hcj ho
  have hall : cells.all (s.lendable k) = false := by
    refine List.all_eq_false.2 ⟨i, hi, fun hl => ?_⟩
    obtain ⟨c, -, hci, -, -, hf, hs⟩ := State.lendable_iff.1 hl
    exact (hc c hci).elim (fun h => h hf) fun h => h hs
  rw [State.takeClaim_refuse hd hall, if_neg hany]

theorem State.sent_send (f : BorderFrame) : ((s.send k f).link k).sent = (s.link k).sent ++ [(s.sectorId, f)] := by
  rw [State.send, State.link_updLink_self]

theorem State.takeClaim_frame : ((s.takeClaim k n cells).link k).neighbour = (s.link k).neighbour ∧
    ((s.takeClaim k n cells).link k).timeouts = (s.link k).timeouts ∧ (s.takeClaim k n cells).slots = s.slots ∧
    (s.takeClaim k n cells).queue = s.queue := by
  have hs : ∀ (v : State) f, ((v.send k f).link k).neighbour = (v.link k).neighbour ∧
      ((v.send k f).link k).timeouts = (v.link k).timeouts := fun v f => by simp [State.send]
  unfold State.takeClaim
  split
  · exact ⟨(hs _ _).1, (hs _ _).2, rfl, rfl⟩
  · split <;> exact ⟨(hs _ _).1, (hs _ _).2, rfl, rfl⟩

end

/-- Settles O51: the frame's event ends with the buses, which leave slots, cells and queue, and add frames behind the answer. -/
theorem claimAnswered : Obligations.ClaimAnswered := by
  intro s k x n cells hr hp ha h1 h32
  have hu := State.borderEvent_leaves k x false (fun v => v.takeClaim k n cells) hr hp ha
  have hx : exec (.claim k x n cells) s = .next (s.borderEvent k x false fun v => v.takeClaim k n cells) := if_pos ⟨h1, h32⟩
  refine ⟨_, hx, ?_⟩
  have hset := State.sameSetting_of_exec rfl hx
  have hg := s.greeted_greet k x
  generalize s.borderEvent k x false (fun v => v.takeClaim k n cells) = t at hu hset ⊢
  generalize s.greet k x = v at hu hg
  obtain ⟨hvn, hvt, hvs, hvq⟩ := State.takeClaim_frame (s := v) (k := k) (n := n) (cells := cells)
  obtain ⟨hn, ht, -, -, l, hl⟩ := (hu.links k).fields
  have hrefuse : ∀ {r}, v.takeClaim k n cells = v.send k (.refuse n r) →
      t.cells = s.cells ∧ ∃ l, (t.link k).sent = (s.link k).sent ++ [(s.sectorId, .refuse n r)] ++ l := by
    intro r hc
    rw [hc, State.sent_send, hg.sent, hg.sectorId] at hl
    exact ⟨hu.cells.trans ((congrArg State.cells hc).trans hg.cells), l, hl⟩
  refine ⟨hu.slots.trans (hvs.trans hg.slots), hu.queue.trans (hvq.trans hg.queue), hset, hn.trans (hvn.trans (by rw [hg.link])),
    ht.trans (hvt.trans (by rw [hg.link])), fun hd hall => ?_, fun hd => ?_, fun hd hb => ?_, fun hd hb hbusy => ?_⟩
  · have hlend : cells.all (v.lendable k) = true := List.all_eq_true.2 fun i hi => State.lendable_iff.2 (by
      simpa only [hg.cellOn, hg.borderOf, hg.cell] using hall i hi)
    have hc := State.takeClaim_grant (n := n) hd hlend
    refine ⟨⟨l, ?_⟩, fun c => ?_⟩
    · rw [hl, hc, State.sent_send, ← hg.sent, ← hg.sectorId]
      rfl
    · rw [hu.cell, hc]
      refine (State.cell_updCells v _ c).trans ?_
      rw [hg.cellsOn, hg.cell]
      simp only [named_iff]
  · exact hrefuse (State.takeClaim_repeated hd)
  · exact hrefuse (State.takeClaim_blocked hd (by simpa only [hg.cellOn, hg.cell] using hb))
  · exact hrefuse (State.takeClaim_busy hd (by simpa only [hg.cellOn, hg.cell] using hb)
      (by simpa only [hg.cellOn, hg.cell] using hbusy))

end Sys2Proof.Machine
end


section
/-! SUPPORT. GRANT (R32, R124, R125, R128): the claim taken, given back, or long ended. -/

namespace Sys2Proof.Machine

section
variable {s v : State} {k : LinkId} {x : SectorId}

/-! ### The greeting leaves what a claim is judged by -/

theorem State.Greeted.sector (h : s.Greeted v k x) : v.sector = s.sector := by rw [h.rest]
theorem State.Greeted.firstUngranted (h : s.Greeted v k x) : v.firstUngranted = s.firstUngranted := by rw [h.rest]; rfl
theorem State.Greeted.sweepOf (h : s.Greeted v k x) : v.sweepOf = s.sweepOf := by rw [h.rest]; rfl
theorem State.Greeted.claimPasses (h : s.Greeted v k x) : v.claimPasses = s.claimPasses := by rw [h.rest]; rfl
theorem State.Greeted.theirsOf (h : s.Greeted v k x) : v.theirsOf = s.theirsOf := by rw [h.rest]; rfl
theorem State.Greeted.seg (h : s.Greeted v k x) : v.seg = s.seg := by rw [h.rest]; rfl
theorem State.Greeted.claim (h : s.Greeted v k x) : (v.link k).claim = (s.link k).claim := by rw [h.link]
theorem State.Greeted.lastEnd (h : s.Greeted v k x) : (v.link k).lastEnd = (s.link k).lastEnd := by rw [h.link]
theorem State.Greeted.history (h : s.Greeted v k x) : (v.link k).history = (s.link k).history := by rw [h.link]

theorem State.Greeted.sameField (h : s.Greeted v k x) : s.SameField v := by
  rw [h.rest]
  exact ⟨rfl, rfl, rfl, rfl, rfl, rfl, rfl, rfl, rfl⟩

theorem State.SameField.trans {a b c : State} (h : a.SameField b) (k : b.SameField c) : a.SameField c :=
  ⟨k.slots.trans h.slots, k.cells.trans h.cells, k.queue.trans h.queue, k.dwell.trans h.dwell, k.batches.trans h.batches,
    k.loadError.trans h.loadError, k.senses.trans h.senses, k.retired.trans h.retired, k.armed.trans h.armed⟩

theorem State.Leaves.sameField {a b : State} (h : a.Leaves b) : a.SameField b :=
  ⟨h.slots, h.cells, h.queue, h.dwell, h.batches, h.loadError, h.senses, h.retired, h.armed⟩

/-! ### RELEASE frames (R118) -/

theorem State.sameField_sendRelease (s : State) (k : LinkId) (l : List CellId) : s.SameField (s.sendRelease k l) := by
  unfold State.sendRelease
  split <;> exact ⟨rfl, rfl, rfl, rfl, rfl, rfl, rfl, rfl, rfl⟩

theorem State.link_sendRelease (s : State) (k : LinkId) (l : List CellId) : (s.sendRelease k l).now = s.now ∧
    ((s.sendRelease k l).link k).claim = (s.link k).claim ∧ ((s.sendRelease k l).link k).lastEnd = (s.link k).lastEnd := by
  unfold State.sendRelease
  split
  · exact ⟨rfl, rfl, rfl⟩
  · exact ⟨rfl, by simp [State.send], by simp [State.send]⟩

/-- The frames on link `k` behind a RELEASE. -/
theorem State.sent_sendRelease (s : State) (k : LinkId) (l : List CellId) : ((s.sendRelease k l).link k).sent =
    (s.link k).sent ++ if l.isEmpty then []
      else [(s.sectorId, .release ((sortBy (fun a b => decide (a ≤ b)) l).map s.theirsOf))] := by
  unfold State.sendRelease
  split
  · exact (List.append_nil _).symm
  · exact State.sent_send _

theorem State.Greeted.sent_sendRelease (h : s.Greeted v k x) (l : List CellId) :
    ((v.sendRelease k l).link k).sent = ((s.sendRelease k l).link k).sent := by
  rw [State.sent_sendRelease, State.sent_sendRelease, h.sent, h.sectorId, h.theirsOf]

/-! ### A grant that is taken (R125) -/

theorem State.dispatch_frame (s : State) (n : SlotId) (id : SegId) :
    (s.dispatch n id).cells = s.cells ∧ (s.dispatch n id).links = s.links ∧ (s.dispatch n id).queue = s.queue := by
  unfold State.dispatch
  split
  · exact ⟨rfl, rfl, rfl⟩
  · dsimp only
    split <;> exact ⟨rfl, rfl, rfl⟩

theorem State.dispatch_grants (s : State) (n : SlotId) (id : SegId) : s.GrantsStay (s.dispatch n id) := by
  unfold State.dispatch
  split
  · exact .refl s
  · dsimp only
    split
    · exact State.GrantsStay.trans (.of_pool rfl) (.updSeg _ _ fun _ _ => .inr rfl)
    · exact .of_pool rfl

/-- The record of a segment that the grant takes up, before its dispatch. -/
theorem State.granted_updSeg {id : SegId} {g : Segment} (h : s.seg id = some g) :
    (s.updSeg id fun g => { g with state := .granted, continuation := false }).Granted id :=
  ⟨{ g with state := .granted, continuation := false }, by rw [State.seg_updSeg_self, h]; rfl, .inl rfl⟩

/-- What an award leaves: the sweep HELD, the segment granted, the entry out of the queue, no link changed (R30, R80). -/
theorem State.award_effect {n : SlotId} {id : SegId} (g : Segment) {x : Segment} (hx : s.seg id = some x) :
    (∀ c ∈ s.sweepOf n g, ((s.award n id g).cell c).owner = .held n) ∧ (s.award n id g).Granted id ∧
      (s.award n id g).inQueue n = false ∧ (s.award n id g).links = s.links := by
  have hcell : ∀ c ∈ s.sweepOf n g, ((s.takeCells n (s.sweepOf n g)).cell c).owner = .held n := by
    intro c hc
    simp only [State.takeCells, State.cell_updCells, named_iff, hc, if_true]
  have hg : (State.updSeg (s.takeCells n (s.sweepOf n g)) id fun g => { g with state := .granted, continuation := false }).Granted id :=
    State.granted_updSeg (s := s.takeCells n (s.sweepOf n g)) hx
  have hq : (s.queue.filter fun e => decide (e.slot ≠ n)).any (fun e => decide (e.slot = n)) = false := by
    simp [List.any_eq_false]
  unfold State.award
  dsimp only
  split
  · obtain ⟨h1, h2, h3⟩ := State.dispatch_frame { (s.takeCells n (s.sweepOf n g)).updSeg id fun g =>
      { g with state := .granted, continuation := false } with queue := s.queue.filter fun e => decide (e.slot ≠ n) } n id
    refine ⟨fun c hc => ?_, State.dispatch_grants _ n id id hg, ?_, h2⟩
    · exact (congrArg (fun t : Table 2048 Cell => (t.get c).owner) h1).trans (hcell c hc)
    · exact (congrArg (fun q : List QEntry => q.any fun e => decide (e.slot = n)) h3).trans hq
  · exact ⟨hcell, hg, hq, rfl⟩

/-- A slot that is not in the queue joins it or stays out, when it is judged (R75). -/
theorem State.judge_frame {n : SlotId} (h : s.inQueue n = false) :
    (s.judge n).cells = s.cells ∧ (s.judge n).links = s.links ∧ (s.judge n).pool = s.pool := by
  unfold State.judge
  rw [if_neg (by simp [h])]
  split <;> exact ⟨rfl, rfl, rfl⟩

theorem State.takeGrant_taken {c : Claim} {g : Segment} (hw : c.withdrawn = false) (hs : s.sector = .run)
    (hu : s.firstUngranted c.slot = some (c.seg, g)) (hp : ∀ y ∈ s.sweepOf c.slot g, s.claimPasses k c y = true) :
    s.takeGrant k c = ((s.endClaim k c .granted).grantSeg c.slot c.seg g).causeScan := by
  have hall : (s.sweepOf c.slot g).all (s.claimPasses k c) = true := List.all_eq_true.2 hp
  unfold State.takeGrant
  simp only [hw, hu, hs, hall, Bool.false_eq_true, if_false, decide_true, Bool.and_self, if_true]

/-- What a taken grant leaves (R32, R125). -/
theorem State.takenGrant_effect (c : Claim) {g x : Segment} (hx : s.seg c.seg = some x) {t : State}
    (ht : t = ((s.endClaim k c .granted).grantSeg c.slot c.seg g).causeScan) :
    (t.link k).claim = none ∧ (t.link k).lastEnd = some (c.number, .granted) ∧
      (∀ y ∈ s.sweepOf c.slot g, (t.cell y).owner = .held c.slot) ∧ t.Granted c.seg := by
  obtain ⟨h1, h2, h3, h4⟩ := State.award_effect (s := s.endClaim k c .granted) (n := c.slot) (id := c.seg) g (x := x) hx
  obtain ⟨j1, j2, j3⟩ := State.judge_frame h3
  have hl : t.link k = (s.endClaim k c .granted).link k :=
    congrArg (fun l : Table 4 Link => l.get k) ((congrArg State.links ht).trans (j2.trans h4))
  rw [State.endClaim, State.link_updLink_self] at hl
  refine ⟨by rw [hl], by rw [hl], fun y hy => ?_, ?_⟩
  · rw [ht]
    exact (congrArg (fun t : Table 2048 Cell => (t.get y).owner) j1).trans (h1 y hy)
  · rw [ht]
    exact State.GrantsStay.of_pool (s := (s.endClaim k c .granted).award c.slot c.seg g) j3 _ h2

/-! ### A grant given back (R32, R124) -/

/-- The cells of a claim that are AWAY still are released, the claim ends, its entry waits out the backoff. -/
def State.giveBack (s : State) (k : LinkId) (c : Claim) : State :=
  (((s.sendRelease k (s.stillAway k c.cells)).endClaim k c .released).backOff c).causeScan

theorem State.takeGrant_giveBack {c : Claim}
    (h : c.withdrawn = true ∨ s.sector ≠ .run ∨ (∀ g, s.firstUngranted c.slot ≠ some (c.seg, g)) ∨
      (∃ g, s.firstUngranted c.slot = some (c.seg, g) ∧ ∃ y ∈ s.sweepOf c.slot g, s.claimPasses k c y = false)) :
    s.takeGrant k c = s.giveBack k c := by
  unfold State.takeGrant
  dsimp only
  split
  · rfl
  · rename_i hw
    split
    · rfl
    · rename_i id g hu
      refine if_neg fun ht => ?_
      simp only [Bool.and_eq_true, decide_eq_true_eq, List.all_eq_true] at ht
      obtain ⟨⟨hid, hrun⟩, hall⟩ := ht
      subst hid
      obtain h | h | h | ⟨g', hg', y, hy, hf⟩ := h
      · exact hw h
      · exact h hrun
      · exact h g hu
      · rw [hu] at hg'
        cases hg'
        rw [hall y hy] at hf
        cases hf

theorem State.giveBack_effect (s : State) (k : LinkId) (c : Claim) {t : State} (ht : t = s.giveBack k c) :
    (t.link k).claim = none ∧ (t.link k).lastEnd = some (c.number, .released) ∧ t.slots = s.slots ∧
      (t.link k).sent = ((s.sendRelease k (s.stillAway k c.cells)).link k).sent ∧
      (c.withdrawn = true → t.queue = s.queue ∧ t.cells = s.cells) ∧
      (c.withdrawn = false → t.queue = s.queue.map (fun e =>
          if e.slot = c.slot then { e with pendingClaim := false, backoff := some (s.now + 100000) } else e) ∧
        ∀ y, t.cell y = if (s.cell y).owner = .pending c.slot then { s.cell y with owner := .free } else s.cell y) := by
  obtain ⟨h1, h2, h3, -, -, -, -, -, -⟩ := s.sameField_sendRelease k (s.stillAway k c.cells)
  obtain ⟨h4, -, -⟩ := s.link_sendRelease k (s.stillAway k c.cells)
  generalize hr : s.sendRelease k (s.stillAway k c.cells) = r at h1 h2 h3 h4 ⊢
  have he : (r.endClaim k c .released).link k = { r.link k with claim := none, lastEnd := some (c.number, .released) } :=
    State.link_updLink_self r k _
  have hs : ((r.endClaim k c .released).link k).sent = (r.link k).sent := by rw [he]
  rw [State.giveBack, hr] at ht
  cases hw : c.withdrawn with
  | true =>
    have hb : (r.endClaim k c .released).backOff c = r.endClaim k c .released := if_pos hw
    rw [hb] at ht
    subst ht
    exact ⟨congrArg Link.claim he, congrArg Link.lastEnd he, h1, hs, fun _ => ⟨h3, h2⟩, nofun⟩
  | false =>
    have hb : (r.endClaim k c .released).backOff c = ((r.endClaim k c .released).freePending c.slot).updEntry c.slot
        fun e => { e with pendingClaim := false, backoff := some (r.now + backoffTime) } := if_neg (by simp [hw])
    rw [hb] at ht
    subst ht
    refine ⟨congrArg Link.claim he, congrArg Link.lastEnd he, h1, hs, nofun, fun _ => ⟨?_, fun y => ?_⟩⟩
    · rw [← h3, ← h4]
      rfl
    · have hy : r.cell y = s.cell y := congrArg (fun t : Table 2048 Cell => t.get y) h2
      rw [← hy]
      exact State.cell_updCells (r.endClaim k c .released) _ y

/-! ### A grant that is too late (R128) -/

/-- The cells of a number's history entry that are AWAY and not claimed now. -/
def State.lateCells (s : State) (k : LinkId) (n : Byte) : List CellId :=
  ((s.border.filter fun e => decide (e.link = k) && decide (e.theirs ∈ (s.link k).history.get n.toFin)).map (·.cell)).filter fun y =>
    decide ((s.cell y).owner = .away k) && !(s.link k).claim.any fun c => decide (y ∈ c.cells)

theorem State.lateGrant_eq (s : State) (k : LinkId) (n : Byte) : s.lateGrant k n = s.sendRelease k (s.lateCells k n) := by
  have hout : ∀ y, decide (y ∉ ((s.link k).claim.map (·.cells)).getD []) = !(s.link k).claim.any fun c => decide (y ∈ c.cells) := by
    intro y
    cases (s.link k).claim <;> simp
  simp only [State.lateGrant, State.lateCells, State.stillAway, List.filter_filter, hout]
  congr 1
  exact List.filter_congr fun y _ => Bool.and_comm _ _

theorem State.Greeted.lateCells (h : s.Greeted v k x) (n : Byte) : v.lateCells k n = s.lateCells k n := by
  simp only [State.lateCells, h.border, h.history, h.cell, h.claim]

theorem State.grantFrame_claim {n : Byte} {c : Claim} (hc : (s.link k).claim = some c) (hn : c.number = n) :
    State.grantFrame k n s = s.takeGrant k c := by
  unfold State.grantFrame
  rw [hc]
  exact if_pos hn

theorem State.grantFrame_late {n : Byte} (h : ∀ c, (s.link k).claim = some c → c.number ≠ n) :
    State.grantFrame k n s = s.lateGrant k n := by
  unfold State.grantFrame
  split
  · rename_i c hc
    exact if_neg (h c hc)
  · rfl

end

/-- Settles O52: by the effect of a grant taken, given back, or too late, and what the end of the event leaves. -/
theorem grantAnswered : Obligations.GrantAnswered := by
  intro s k x n hr hp ha
  have hu := State.borderEvent_leaves k x false (State.grantFrame k n) hr hp ha
  have hx := exec_grant k x n s
  have hset := State.sameSetting_of_exec rfl hx
  have hg := s.greeted_greet k x
  generalize s.borderEvent k x false (State.grantFrame k n) = t at hu hset hx
  generalize s.greet k x = v at hu hg
  obtain ⟨-, -, hclaim, hend, l, hsent⟩ := (hu.links k).fields
  refine ⟨fun c g hc hn hw hrun hfu hpass => ?_, fun c hc hn hcase => ?_, fun hlate => ?_⟩
  · have hf := (State.grantFrame_claim (hg.claim.trans hc) hn).trans (State.takeGrant_taken hw (hg.sector.trans hrun)
      (by rw [hg.firstUngranted]; exact hfu) (by rw [hg.sweepOf, hg.claimPasses]; exact hpass))
    obtain ⟨h1, h2, h3, h4⟩ := State.takenGrant_effect c (g := g) (by rw [hg.seg]; exact (State.firstUngranted_mem hfu).2) hf
    refine ⟨t, hx, hclaim.trans h1, hend.trans (by rw [h2, hn]), fun y hy => ?_, hu.granted _ h4, hset⟩
    rw [hu.cell]
    exact h3 y (by rw [hg.sweepOf]; exact hy)
  · have hf := (State.grantFrame_claim (hg.claim.trans hc) hn).trans (State.takeGrant_giveBack
      (by rw [hg.sector, hg.firstUngranted, hg.sweepOf, hg.claimPasses]; exact hcase))
    obtain ⟨h1, h2, h3, h4, h5, h6⟩ := v.giveBack_effect k c hf
    refine ⟨t, hx, hclaim.trans h1, hend.trans (by rw [h2, hn]), hu.slots.trans (h3.trans hg.slots), hset, ⟨l, ?_⟩, fun hw => ?_,
      fun hw => ?_⟩
    · rw [hsent, h4, hg.sent_sendRelease]
      simp only [State.stillAway, hg.cell]
    · exact ⟨hu.queue.trans ((h5 hw).1.trans hg.queue), hu.cells.trans ((h5 hw).2.trans hg.cells)⟩
    · obtain ⟨hq, hcell⟩ := h6 hw
      refine ⟨hu.queue.trans (by rw [hq, hg.queue, hg.now]), fun y => ?_⟩
      rw [hu.cell, hcell, hg.cell]
  · have hf := (State.grantFrame_late (by rw [hg.claim]; exact hlate)).trans (v.lateGrant_eq k n)
    rw [hg.lateCells] at hf
    obtain ⟨-, h4, h5⟩ := v.link_sendRelease k (s.lateCells k n)
    rw [hf] at hu hclaim hend hsent
    rw [hg.sent_sendRelease] at hsent
    exact ⟨t, hx, hclaim.trans (h4.trans hg.claim), hend.trans (h5.trans hg.lastEnd),
      (hg.sameField.trans (v.sameField_sendRelease k _)).trans hu.sameField, hset, l, hsent⟩

end Sys2Proof.Machine
end


section
/-! SUPPORT. SET_FOOTPRINT (R37, R137): its operands, and a resting robot put where it is said to stand. -/

namespace Sys2Proof

/-! ### Changes of one record -/

namespace Table
variable {n : Nat} {α : Type}

theorem upd_congr (t : Table n α) (i : Fin n) {f g : α → α} (h : f (t.get i) = g (t.get i)) : t.upd i f = t.upd i g := by
  simp only [upd, h]

theorem upd_eq_self (t : Table n α) (i : Fin n) {f : α → α} (h : f (t.get i) = t.get i) : t.upd i f = t := by
  rw [upd, h]
  simp [set, get]

theorem set_set (t : Table n α) (i : Fin n) (a b : α) : (t.set i a).set i b = t.set i b := by
  simp only [set, List.set_set]

theorem upd_upd (t : Table n α) (i : Fin n) (f g : α → α) : (t.upd i f).upd i g = t.upd i fun a => g (f a) := by
  rw [upd, get_upd_self, upd, set_set]
  rfl

end Table

namespace Machine

/-! ### Lists of cells as operands -/

theorem allInRange_map {n : Nat} (l : List (Fin n)) : allInRange n (l.map Fin.val) = some l := by
  induction l with
  | nil => rfl
  | cons a l ih => simp only [List.map_cons, allInRange, inRange_val, ih]

theorem allInRange_eq_some {n : Nat} {l : List Nat} {c : List (Fin n)} (h : allInRange n l = some c) : l = c.map Fin.val := by
  induction l generalizing c with
  | nil => cases h; rfl
  | cons k l ih =>
    simp only [allInRange] at h
    split at h
    · rename_i a r ha hr
      cases h
      have hk : a.val = k := by
        unfold inRange at ha
        split at ha
        · cases ha; rfl
        · cases ha
      rw [List.map_cons, hk, ih hr]
    · cases h

theorem cellList_eq_some {lo hi : Nat} {l : List Nat} {c : List CellId} :
    cellList lo hi l = some c ↔ l = c.map Fin.val ∧ lo ≤ c.length ∧ c.length ≤ hi ∧ c.Nodup := by
  unfold cellList
  constructor
  · intro h
    split at h
    · rename_i c' hc
      split at h
      · rename_i hb
        cases h
        exact ⟨allInRange_eq_some hc, hb⟩
      · cases h
    · cases h
  · rintro ⟨rfl, hb⟩
    rw [allInRange_map]
    exact if_pos hb

theorem cellList_eq_none {lo hi : Nat} {l : List Nat}
    (h : l.length < lo ∨ hi < l.length ∨ ¬ l.Nodup ∨ ∃ c ∈ l, 2047 < c) : cellList lo hi l = none := by
  cases hc : cellList lo hi l with
  | none => rfl
  | some c =>
    obtain ⟨rfl, h1, h2, h3⟩ := cellList_eq_some.1 hc
    rw [List.length_map] at h
    obtain h | h | h | ⟨i, hi, h⟩ := h
    · omega
    · omega
    · exact absurd (h3.map Fin.val_injective) h
    · obtain ⟨j, -, rfl⟩ := List.mem_map.1 hi
      omega

variable {s : State}

theorem setFootprintRule_badArg {slot : Nat} {cells : List Nat}
    (h : 95 < slot ∨ cells.length < 1 ∨ 8 < cells.length ∨ ¬ cells.Nodup ∨ ∃ c ∈ cells, 2047 < c) :
    setFootprintRule slot cells s = s.reply .badArg := by
  unfold setFootprintRule
  obtain h | h := h
  · rw [inRange_eq_none (n := 96) h]
  · rw [cellList_eq_none h]
    cases inRange 96 slot <;> rfl

theorem State.all_holds {n : SlotId} {l : List CellId} : l.all (s.holds n) = true ↔ ∀ c ∈ l, (s.cell c).owner = .held n := by
  simp only [List.all_eq_true, State.holds, decide_eq_true_iff]

section Rule
variable {n : SlotId} {l : List CellId} {cells : List Nat} (hl : cellList 1 8 cells = some l)
include hl

theorem setFootprintRule_absent (h : (s.slot n).state = .absent) : setFootprintRule n.val cells s = s.reply .absent := by
  simp only [setFootprintRule, inRange_val, hl, h]

theorem setFootprintRule_retired (h : (s.slot n).state = .retired) : setFootprintRule n.val cells s = s.reply .retired := by
  simp only [setFootprintRule, inRange_val, hl, h]

theorem setFootprintRule_faulted (h : (s.slot n).state = .faulted) : setFootprintRule n.val cells s = s.reply .faulted := by
  simp only [setFootprintRule, inRange_val, hl, h]

/-- A robot that moves, or whose position is not known (R137). -/
theorem setFootprintRule_state (h : (s.slot n).state = .moving ∨ (s.slot n).state = .dwelling ∨
    (((s.slot n).state = .unknown ∨ (s.slot n).state = .waiting) ∧ (s.slot n).stand = .lost)) :
    setFootprintRule n.val cells s = s.reply .state := by
  obtain h | h | ⟨h | h, hs⟩ := h
  · simp only [setFootprintRule, inRange_val, hl, h]
  · simp only [setFootprintRule, inRange_val, hl, h]
  · simp only [setFootprintRule, inRange_val, hl, h, hs, Stand.pos]
  · simp only [setFootprintRule, inRange_val, hl, h, hs, Stand.pos]

/-- A robot at rest at a known position (R137). -/
theorem setFootprintRule_resting {a : Theta} {f : Phi} (hpos : (s.slot n).stand.pos = some (a, f))
    (h : (s.slot n).state = .parked ∨ (s.slot n).state = .stranded ∨ (s.slot n).state = .waiting) :
    setFootprintRule n.val cells s =
      if s.claimPending n then s.reply .busy
      else if l.all (s.holds n) then
        (((s.placeAt n a f l).scanWhen ((s.slot n).stand.cells.any fun x => s.holds n x && decide (x ∉ l))).settleEvent s).reply .ok
      else s.reply .notSubset := by
  obtain h | h | h := h <;> simp only [setFootprintRule, inRange_val, hl, h, hpos]

theorem setFootprintRule_busy {a : Theta} {f : Phi} (hpos : (s.slot n).stand.pos = some (a, f))
    (h : (s.slot n).state = .parked ∨ (s.slot n).state = .stranded ∨ (s.slot n).state = .waiting)
    (hc : s.claimPending n = true) : setFootprintRule n.val cells s = s.reply .busy := by
  rw [setFootprintRule_resting hl hpos h, if_pos hc]

theorem setFootprintRule_notSubset {a : Theta} {f : Phi} (hpos : (s.slot n).stand.pos = some (a, f))
    (h : (s.slot n).state = .parked ∨ (s.slot n).state = .stranded ∨ (s.slot n).state = .waiting)
    (hc : s.claimPending n = false) (hh : ∃ c ∈ l, (s.cell c).owner ≠ .held n) :
    setFootprintRule n.val cells s = s.reply .notSubset := by
  have hh' : ¬ l.all (s.holds n) = true := fun e => by
    obtain ⟨c, hm, ho⟩ := hh
    exact ho (State.all_holds.1 e c hm)
  rw [setFootprintRule_resting hl hpos h, hc, if_neg hh']
  rfl

end Rule

/-! ### A slot judged for the grant queue -/

theorem State.withdrawClaim_eq_self {n : SlotId} (h : s.claimPending n = false) : s.withdrawClaim n = s := by
  unfold State.withdrawClaim
  split
  · rename_i e he
    refine if_neg fun hp => ?_
    simp [State.claimPending, he, hp] at h
  · rfl

/-- A slot at rest, in the queue or not and with no claim pending, is judged: it is WAITING in the queue and else in its rest
state, and nothing but slots, queue and scan changes (R10, R75). -/
theorem State.judge_resting {n : SlotId} (hc : s.claimPending n = false)
    (hst : (s.slot n).state = if s.inQueue n then .waiting else (s.slot n).stand.rest) :
    (s.judge n).slots = s.slots.upd n (fun sl => { sl with state := if (s.judge n).inQueue n then .waiting else sl.stand.rest }) ∧
      ∃ sl q sc, s.judge n = { s with slots := sl, queue := q, scanDue := sc } := by
  have hself : ∀ b : Bool, (s.slot n).state = (if b then .waiting else (s.slot n).stand.rest) →
      s.slots = s.slots.upd n fun sl => { sl with state := if b then .waiting else sl.stand.rest } := by
    intro b hb
    refine (Table.upd_eq_self _ _ ?_).symm
    exact congrArg (fun st => { s.slot n with state := st }) hb.symm
  cases hq : s.inQueue n with
  | true =>
    cases he : s.eligible n with
    | true =>
      have hj : s.judge n = s := by simp [State.judge, hq, he]
      rw [hj, hq]
      exact ⟨hself true (by rw [hst, hq]), _, _, _, rfl⟩
    | false =>
      have hj : s.judge n = s.leaveQueue n := by simp [State.judge, hq, he]
      have hout : (s.leaveQueue n).inQueue n = false := by
        simp [State.leaveQueue, State.withdrawClaim_eq_self hc, State.inQueue, List.any_eq_false]
      rw [hj, hout]
      unfold State.leaveQueue
      rw [State.withdrawClaim_eq_self hc]
      refine ⟨Table.upd_congr _ _ ?_, _, _, _, rfl⟩
      rw [hq] at hst
      exact if_pos hst
  | false =>
    cases he : s.eligible n with
    | true =>
      have hj : s.judge n = s.joinQueue n := by simp [State.judge, hq, he]
      have hin : (s.joinQueue n).inQueue n = true := by
        simp [State.joinQueue, State.causeScan, State.inQueue]
      rw [hj, hin]
      refine ⟨?_, _, _, _, rfl⟩
      show (s.slots.upd n fun sl => { sl with state := sl.state.joined }) = _
      refine Table.upd_congr _ _ ?_
      rw [hq] at hst
      have hj : (s.slot n).state.joined = .waiting := by
        rw [hst]
        cases (s.slot n).stand <;> simp [Stand.rest, SlotState.joined]
      exact congrArg (fun st => { s.slot n with state := st }) hj
    | false =>
      have hj : s.judge n = s := by simp [State.judge, hq, he]
      rw [hj, hq]
      exact ⟨hself false (by rw [hst, hq]), _, _, _, rfl⟩

/-! ### The cells of a robot put down -/

theorem State.releasedOwner_ne_held (i sh : Nat) (m : SlotId) : s.releasedOwner i sh ≠ .held m := by
  unfold State.releasedOwner
  split
  · split
    · nofun
    · split <;> nofun
  · nofun

theorem Cell.dropOrphan_held (r : Cell) (m : SlotId) : r.dropOrphan.owner = .held m ↔ r.owner = .held m := by
  unfold Cell.dropOrphan
  split
  · rename_i k hk
    split <;> simp [hk]
  · rfl

/-- The held set made exactly `l`, of a slot that stands on `l` with nothing granted (R33, R37, R137). -/
theorem State.cells_settle {n : SlotId} {a : Theta} {f : Phi} {l : List CellId} (hs : (s.slot n).stand = .footprint a f l)
    (hg : s.grantedSegs n = []) (c : CellId) :
    ((((s.takeCells n l).settleCells n).cell c).owner = .held n ↔ c ∈ l) ∧
      (∀ m, m ≠ n → (∀ c ∈ l, (s.cell c).owner = .held n) →
        ((((s.takeCells n l).settleCells n).cell c).owner = .held m ↔ (s.cell c).owner = .held m)) ∧
      (((s.takeCells n l).settleCells n).cell c).shadow = (s.cell c).shadow := by
  have hk : (s.takeCells n l).keepCells n = l := by
    show (s.slot n).stand.cells ++ (s.grantedSegs n).flatMap _ = l
    rw [hs, hg]
    exact List.append_nil l
  have hcell : ((s.takeCells n l).settleCells n).cell c = Cell.dropOrphan
      (if ((s.takeCells n l).cell c).owner = .held n ∧ named c.val l = false then
        { (s.takeCells n l).cell c with owner := s.releasedOwner c.val ((s.takeCells n l).cell c).shadow }
      else (s.takeCells n l).cell c) := by
    rw [State.settleCells, State.dropOrphans, State.cell_updCells, State.rehold, hk, State.holdOnly, State.cell_updCells]
    rfl
  have htake : (s.takeCells n l).cell c = if c ∈ l then { s.cell c with owner := .held n } else s.cell c := by
    rw [State.takeCells, State.cell_updCells]
    simp only [named_iff]
  rw [hcell, Cell.dropOrphan_held, Cell.shadow_dropOrphan, htake]
  by_cases hc : c ∈ l
  · have hn : named c.val l = true := (named_iff c l).2 hc
    simp only [hc, hn, if_true, Bool.true_eq_false, and_false, if_false]
    refine ⟨by simp, fun m hm hl => ?_, trivial⟩
    rw [Cell.dropOrphan_held, hl c hc]
  · have hn : named c.val l = false := by rw [Bool.eq_false_iff]; exact fun h => hc ((named_iff c l).1 h)
    simp only [hc, hn, if_false, and_true, iff_false]
    by_cases ho : (s.cell c).owner = .held n
    · simp only [ho, if_true]
      refine ⟨s.releasedOwner_ne_held _ _ n, fun m hm _ => ?_, trivial⟩
      rw [Cell.dropOrphan_held]
      exact ⟨fun e => absurd e (s.releasedOwner_ne_held _ _ m), fun e => absurd (Owner.held.inj e).symm hm⟩
    · simp only [ho, if_false]
      exact ⟨fun e => e, fun m _ _ => Cell.dropOrphan_held _ m, trivial⟩

/-! ### A robot put down where it stands -/

/-- The position known before as after, no shadow is cast or lifted (R29). -/
theorem State.moveStand_known {n : SlotId} {st : Stand} (h : s.posKnown n = st.known) :
    s.moveStand n st = s.updSlot n fun sl => { sl with stand := st } := by
  unfold State.moveStand
  rw [h]
  cases st.known <;> rfl

theorem Stand.known_of_pos {st : Stand} {x : Theta × Phi} (h : st.pos = some x) : st.known = true := by
  cases st with
  | lost => cases h
  | footprint => rfl
  | sweep => rfl

/-- The held set and the state of slot `n`, put down on `l` at a position known before: what is left to do is to judge it. -/
def State.putDown (s : State) (n : SlotId) (a : Theta) (f : Phi) (l : List CellId) : State :=
  (((s.updSlot n fun sl => { sl with stand := .footprint a f l }).takeCells n l).settleCells n).updSlot n
    fun sl => { sl with state := sl.state.parkedBy }

theorem State.slots_putDown (s : State) (n : SlotId) (a : Theta) (f : Phi) (l : List CellId) :
    (s.putDown n a f l).slots =
      s.slots.upd n fun sl => { sl with stand := .footprint a f l, state := sl.state.parkedBy } :=
  Table.upd_upd s.slots n (fun sl => { sl with stand := .footprint a f l }) fun sl => { sl with state := sl.state.parkedBy }

theorem State.putDown_frame (s : State) (n : SlotId) (a : Theta) (f : Phi) (l : List CellId) :
    ∃ sl cl, s.putDown n a f l = { s with slots := sl, cells := cl } := ⟨_, _, rfl⟩

theorem State.placeAt_eq {n : SlotId} {a : Theta} {f : Phi} {l : List CellId} (h : s.posKnown n = true) :
    s.placeAt n a f l = ((s.putDown n a f l).judge n).scanWhen (((s.putDown n a f l).judge n).inQueue n) := by
  unfold State.placeAt State.putDown
  rw [State.moveStand_known (st := .footprint a f l) h]
  rfl

theorem State.scanWhen_eq (s : State) (b : Bool) : ∃ sc, s.scanWhen b = { s with scanDue := sc } := by
  unfold State.scanWhen
  split
  · exact ⟨_, rfl⟩
  · exact ⟨_, rfl⟩

theorem State.slots_scanWhen (s : State) (b : Bool) : (s.scanWhen b).slots = s.slots := by
  obtain ⟨_, e⟩ := s.scanWhen_eq b
  rw [e]

theorem State.inQueue_scanWhen (s : State) (b : Bool) (n : SlotId) : (s.scanWhen b).inQueue n = s.inQueue n := by
  obtain ⟨_, e⟩ := s.scanWhen_eq b
  rw [e]
  rfl

/-- A resting robot put down where it stands (R37): its record and the cells are all that changes, queue and scan apart. -/
theorem State.placeAt_resting {n : SlotId} {a : Theta} {f : Phi} {l : List CellId} (hk : s.posKnown n = true)
    (hst : (s.slot n).state = .parked ∨ (s.slot n).state = .stranded ∨ (s.slot n).state = .waiting)
    (hq : s.inQueue n = true ↔ (s.slot n).state = .waiting) (hc : s.claimPending n = false) :
    (s.placeAt n a f l).slots = (s.updSlot n fun sl =>
        { sl with stand := .footprint a f l, state := if (s.placeAt n a f l).inQueue n then .waiting else .parked }).slots ∧
      ∃ sl q sc, s.placeAt n a f l = { s with slots := sl, cells := (s.putDown n a f l).cells, queue := q, scanDue := sc } := by
  have hslot : (s.putDown n a f l).slot n =
      { s.slot n with stand := .footprint a f l, state := (s.slot n).state.parkedBy } := by
    rw [State.slot, State.slots_putDown, Table.get_upd_self]
    rfl
  have hrest : ((s.putDown n a f l).slot n).state =
      if (s.putDown n a f l).inQueue n then .waiting else ((s.putDown n a f l).slot n).stand.rest := by
    rw [hslot]
    show (s.slot n).state.parkedBy = if s.inQueue n then .waiting else .parked
    obtain h | h | h := hst <;> simp [h, SlotState.parkedBy] at hq ⊢ <;> simp [hq]
  obtain ⟨hsl, sl, q, sc, e⟩ := State.judge_resting (s := s.putDown n a f l) hc hrest
  obtain ⟨sc', e'⟩ := ((s.putDown n a f l).judge n).scanWhen_eq (((s.putDown n a f l).judge n).inQueue n)
  rw [State.placeAt_eq hk, State.slots_scanWhen, State.inQueue_scanWhen]
  obtain ⟨_, cl, e₀⟩ := s.putDown_frame n a f l
  refine ⟨?_, sl, q, sc', by rw [e', e, e₀]⟩
  rw [hsl, State.slots_putDown, Table.upd_upd]
  rfl

/-! ### The end of an event that closed no segment -/

theorem State.sendRelease_eq (s : State) (k : LinkId) (l : List CellId) : ∃ ln, s.sendRelease k l = { s with links := ln } := by
  unfold State.sendRelease
  split
  · exact ⟨_, rfl⟩
  · exact ⟨_, rfl⟩

theorem State.flushReleases_eq (s old : State) : ∃ ln, s.flushReleases old = { s with links := ln } := by
  refine foldl_keeps (P := fun t : State => ∃ ln, t = { s with links := ln }) (fun t k ht => ?_) ⟨_, rfl⟩
  obtain ⟨ln, rfl⟩ := ht
  obtain ⟨ln', e⟩ := State.sendRelease_eq { s with links := ln } k (releasedOn old s k)
  exact ⟨ln', e⟩

theorem closedIn_eq_nil {old t : State} (h : t.pool = old.pool) : closedIn old t = [] := by
  simp only [closedIn, State.seg, h, List.flatMap_eq_nil_iff, List.filter_eq_nil_iff]
  intro n _ id _
  cases old.pool.get id <;> simp

theorem State.returnRecords_eq_self {old t : State} (h : t.pool = old.pool) : t.returnRecords old = t := by
  rw [State.returnRecords, closedIn_eq_nil h]
  rfl

/-- No segment closed, the end of an event changes the links and the scan only. -/
theorem State.settleEvent_eq {old : State} (h : s.pool = old.pool) :
    ∃ sc ln, s.settleEvent old = { s with scanDue := sc, links := ln } := by
  obtain ⟨ln, e⟩ := s.flushReleases_eq old
  rw [State.settleEvent, e, State.returnRecords_eq_self]
  · exact ⟨_, _, rfl⟩
  · exact h

/-- What an accepted SET_FOOTPRINT leaves (R37, R137): the slot's record, the held set, queue, scan and links apart, all stays. -/
theorem State.footprintSet_eq {n : SlotId} {a : Theta} {f : Phi} {l : List CellId} {b : Bool} {u : State}
    (hu : u = ((s.placeAt n a f l).scanWhen b).settleEvent s) (hk : s.posKnown n = true)
    (hst : (s.slot n).state = .parked ∨ (s.slot n).state = .stranded ∨ (s.slot n).state = .waiting)
    (hq : s.inQueue n = true ↔ (s.slot n).state = .waiting) (hc : s.claimPending n = false) :
    u.slots = (s.updSlot n fun sl =>
        { sl with stand := .footprint a f l, state := if u.inQueue n then .waiting else .parked }).slots ∧
      ∃ sl q sc ln, u = { s with slots := sl, cells := (s.putDown n a f l).cells, queue := q, scanDue := sc, links := ln } := by
  obtain ⟨hsl, sl, q, sc, e⟩ := State.placeAt_resting (a := a) (f := f) (l := l) hk hst hq hc
  obtain ⟨sc', e'⟩ := (s.placeAt n a f l).scanWhen_eq b
  have hpool : ((s.placeAt n a f l).scanWhen b).pool = s.pool := by rw [e', e]
  obtain ⟨sc'', ln, e''⟩ := State.settleEvent_eq hpool
  rw [← hu, e'] at e''
  constructor
  · rw [e'']
    exact hsl
  · rw [e] at e''
    exact ⟨sl, q, sc'', ln, e''⟩

/-- The held set made exactly the footprint, cells of the held set before (R37, R137). -/
theorem State.cells_putDown {n : SlotId} {a : Theta} {f : Phi} {l : List CellId} (hg : s.grantedSegs n = [])
    (hl : ∀ c ∈ l, (s.cell c).owner = .held n) (c : CellId) :
    (((s.putDown n a f l).cell c).owner = .held n ↔ c ∈ l) ∧
      (∀ m, m ≠ n → (((s.putDown n a f l).cell c).owner = .held m ↔ (s.cell c).owner = .held m)) ∧
      ((s.putDown n a f l).cell c).shadow = (s.cell c).shadow := by
  have hs : ((s.updSlot n fun sl => { sl with stand := .footprint a f l }).slot n).stand = .footprint a f l := by
    simp only [State.slot_updSlot_self]
  have hg' : (s.updSlot n fun sl => { sl with stand := .footprint a f l }).grantedSegs n = [] := by
    rw [← hg]
    simp only [State.grantedSegs, State.chainSegs, State.slot_updSlot_self]
    rfl
  obtain ⟨h1, h2, h3⟩ := State.cells_settle hs hg' c
  exact ⟨h1, fun m hm => h2 m hm hl, h3⟩

/-- From `s` to `u`, an accepted SET_FOOTPRINT of slot `n` (R37, R137). -/
structure State.FootprintSet (s : State) (n : SlotId) (a : Theta) (f : Phi) (l : List CellId) (u : State) : Prop where
  slots : u.slots = (s.updSlot n fun sl =>
    { sl with stand := .footprint a f l, state := if u.inQueue n then .waiting else .parked }).slots
  held : ∀ c, (u.cell c).owner = .held n ↔ c ∈ l
  others : ∀ c m, m ≠ n → ((u.cell c).owner = .held m ↔ (s.cell c).owner = .held m)
  shadow : ∀ c, (u.cell c).shadow = (s.cell c).shadow
  pool : u.pool = s.pool
  free : u.free = s.free
  batches : u.batches = s.batches
  senses : u.senses = s.senses
  setting : s.SameSetting u
  ports : u.ports = s.ports

theorem State.footprintSet {n : SlotId} {a : Theta} {f : Phi} {l : List CellId} {b : Bool} {u : State}
    (hu : u = ((s.placeAt n a f l).scanWhen b).settleEvent s) (hk : s.posKnown n = true)
    (hst : (s.slot n).state = .parked ∨ (s.slot n).state = .stranded ∨ (s.slot n).state = .waiting)
    (hq : s.inQueue n = true ↔ (s.slot n).state = .waiting) (hc : s.claimPending n = false) (hg : s.grantedSegs n = [])
    (hl : ∀ c ∈ l, (s.cell c).owner = .held n) : s.FootprintSet n a f l u := by
  obtain ⟨hslots, sl, q, sc, ln, e⟩ := State.footprintSet_eq hu hk hst hq hc
  have hcell : ∀ c, u.cell c = (s.putDown n a f l).cell c := fun c => by rw [e]; rfl
  have hheld : ∀ c, _ ∧ _ ∧ _ := fun c => hcell c ▸ State.cells_putDown (a := a) (f := f) hg hl c
  simp only [forall_and] at hheld
  obtain ⟨hheld, hothers, hshadow⟩ := hheld
  exact {
    slots := hslots
    held := hheld
    others := hothers
    shadow := hshadow
    pool := by rw [e]
    free := by rw [e]
    batches := by rw [e]
    senses := by rw [e]
    setting := by rw [e]; exact ⟨rfl, rfl, rfl, rfl, rfl, rfl, rfl, rfl, rfl⟩
    ports := by rw [e] }

theorem setFootprintRule_ok {n : SlotId} {a : Theta} {f : Phi} {l : List CellId} {cells : List Nat}
    (hl : cellList 1 8 cells = some l) (hpos : (s.slot n).stand.pos = some (a, f))
    (hst : (s.slot n).state = .parked ∨ (s.slot n).state = .stranded ∨ (s.slot n).state = .waiting)
    (hc : s.claimPending n = false) (hh : ∀ c ∈ l, (s.cell c).owner = .held n)
    (hq : s.inQueue n = true ↔ (s.slot n).state = .waiting) (hg : s.grantedSegs n = []) :
    ∃ u, setFootprintRule n.val cells s = u.reply .ok ∧ s.FootprintSet n a f l u := by
  rw [setFootprintRule_resting hl hpos hst, hc, if_neg Bool.false_ne_true, if_pos (State.all_holds.2 hh)]
  exact ⟨_, rfl, State.footprintSet rfl (Stand.known_of_pos hpos) hst hq hc hg hh⟩

/-- Settles O35: the refusals follow the branches of the rule; when it accepts, the robot is put down where it stands. -/
theorem setFootprintJudged : Obligations.SetFootprintJudged := by
  intro s p seq slot cells r hT
  refine ⟨fun h => ⟨_, rfl, hT.completes_same seq _ (setFootprintRule_badArg h)⟩, ?_⟩
  rintro n l rfl rfl hnd h1 h8
  have hl : cellList 1 8 (l.map Fin.val) = some l := cellList_eq_some.2 ⟨rfl, h1, h8, hnd⟩
  refine ⟨fun h => ⟨_, rfl, hT.completes_same seq _ ?_⟩, fun h => ⟨_, rfl, hT.completes_same seq _ ?_⟩,
    fun h => ⟨_, rfl, hT.completes_same seq _ ?_⟩, fun h => ⟨_, rfl, hT.completes_same seq _ ?_⟩, fun a f hpos hst =>
    ⟨fun h => ⟨_, rfl, hT.completes_same seq _ ?_⟩, fun h hc => ⟨_, rfl, hT.completes_same seq _ ?_⟩, fun h hc hq hg => ?_⟩⟩
  · exact setFootprintRule_absent hl h
  · exact setFootprintRule_retired hl h
  · exact setFootprintRule_faulted hl h
  · exact setFootprintRule_state hl h
  · exact setFootprintRule_busy hl hpos hst h
  · exact setFootprintRule_notSubset hl hpos hst h hc
  · obtain ⟨u, hrule, hu⟩ := setFootprintRule_ok (s := s.takeInHand p ReqCode.setFootprint.number seq) hl hpos hst h hc hq hg
    have hdone := State.request_completes hT seq _ hrule fun m => by
      rw [State.port, State.port, hu.ports]
      exact Port.Carries.refl _
    exact ⟨_, u, rfl, hdone, hu.slots, hu.held, hu.others, hu.shadow, hu.pool, hu.free, hu.batches, hu.senses,
      { hu.setting with }⟩

end Machine
end Sys2Proof
end


section
/-! SUPPORT. OPEN_BATCH (R53, R54), the sequence violations, CANCEL_OPEN and ACK_LOAD_ERROR (R56, R57): the rule's outcomes, the record
that is taken, and what an abandoned batch leaves. -/

namespace Sys2Proof.Machine

/-! ### The first of a range that passes a test -/

theorem find?_finRange_eq_some {n : Nat} {p : Fin n → Bool} {i : Fin n} :
    (List.finRange n).find? p = some i ↔ p i = true ∧ ∀ j, j < i → p j = false := by
  rw [List.find?_eq_some_iff_getElem]
  refine and_congr_right fun _ => ⟨?_, fun h => ⟨i.val, by simp, by simp, fun j hj => ?_⟩⟩
  · rintro ⟨k, hk, rfl, h⟩ j hj
    have := h j.val (by simpa [Fin.lt_def] using hj)
    simpa using this
  · have := h ⟨j, by omega⟩ hj
    simpa using this

/-! ### The record an OPEN_BATCH takes (R53) -/

section
variable {s : State}

theorem State.freeBatch_eq_some {i : Fin 4} (h : s.batches.get i = none) (hj : ∀ j, j < i → s.batches.get j ≠ none) :
    s.freeBatch = some i :=
  find?_finRange_eq_some.2 ⟨by simp [h], fun j hlt => by simpa using Option.ne_none_iff_isSome.1 (hj j hlt)⟩

theorem State.freeBatch_eq_none (h : ∀ i, s.batches.get i ≠ none) : s.freeBatch = none :=
  List.find?_eq_none.2 fun i _ => by simpa using h i

theorem State.earlierEnd_of_none {i : Fin 4} (h : s.endOrderAt i = none) (best : Option (Fin 4)) : s.earlierEnd best i = best := by
  simp [State.earlierEnd, h]

/-- No record is DONE or ABORTED. -/
theorem State.reusable_eq_none (h : ∀ i, s.endOrderAt i = none) : s.reusable = none := by
  have hl : ∀ l : List (Fin 4), l.foldl s.earlierEnd none = none := by
    intro l
    induction l with
    | nil => rfl
    | cons i l ih => rw [List.foldl_cons, State.earlierEnd_of_none (h i), ih]
  exact hl _

/-- Place `i` holds the record that ended before every other. -/
theorem State.reusable_eq_some {i : Fin 4} {a : Nat} (ha : s.endOrderAt i = some a)
    (hj : ∀ j b, j ≠ i → s.endOrderAt j = some b → a < b) : s.reusable = some i := by
  have hkeep : ∀ j, s.earlierEnd (some i) j = some i := by
    intro j
    cases hb : s.endOrderAt j with
    | none => exact State.earlierEnd_of_none hb _
    | some b =>
      by_cases hji : j = i
      · subst hji
        simp [State.earlierEnd, ha]
      · have hlt := hj j b hji hb
        simp only [State.earlierEnd, hb, Option.bind_some, ha]
        exact if_neg (by omega)
  have htake : ∀ best, s.earlierEnd best i = some i := by
    intro best
    cases hb : best.bind s.endOrderAt with
    | none => simp [State.earlierEnd, ha, hb]
    | some b =>
      obtain ⟨k, rfl, hk⟩ := Option.bind_eq_some_iff.1 hb
      by_cases hki : k = i
      · subst hki; exact hkeep k
      · simp [State.earlierEnd, ha, hk, hj k b hki hk]
  have hfold : ∀ l : List (Fin 4), l.foldl s.earlierEnd (some i) = some i := by
    intro l
    induction l with
    | nil => rfl
    | cons j l ih => rw [List.foldl_cons, hkeep, ih]
  have hmem : ∀ (l : List (Fin 4)) best, i ∈ l → l.foldl s.earlierEnd best = some i := by
    intro l
    induction l with
    | nil => intro _ h; cases h
    | cons j l ih =>
      intro best h
      rcases List.mem_cons.1 h with rfl | h
      · rw [List.foldl_cons, htake, hfold]
      · exact ih _ h
  exact hmem _ _ (List.mem_finRange i)

theorem State.batchPlace_eq_some {i : Fin 4} (h : (s.batches.get i = none ∧ ∀ j, j < i → s.batches.get j ≠ none) ∨
    ((∀ j, s.batches.get j ≠ none) ∧ ∃ a, s.endOrderAt i = some a ∧ ∀ j b, j ≠ i → s.endOrderAt j = some b → a < b)) :
    s.batchPlace = some i := by
  obtain ⟨h, hj⟩ | ⟨hf, a, ha, hj⟩ := h
  · rw [State.batchPlace, State.freeBatch_eq_some h hj]
  · rw [State.batchPlace, State.freeBatch_eq_none hf]
    exact State.reusable_eq_some ha hj

theorem State.batchPlace_eq_none (h : ∀ i, ∃ b, s.batches.get i = some b ∧ b.endOrder = none) : s.batchPlace = none := by
  rw [State.batchPlace, State.freeBatch_eq_none fun i e => ?_]
  · refine State.reusable_eq_none fun i => ?_
    obtain ⟨b, hb, he⟩ := h i
    simp [State.endOrderAt, hb, he]
  · obtain ⟨b, hb, -⟩ := h i
    rw [e] at hb
    cases hb

/-! ### The outcomes of OPEN_BATCH (R54) -/

theorem openBatchRule_flag {id : Nat} (h : s.loadError = true) : openBatchRule id s = s.reply .loadErrorSet := if_pos h

/-- A batch is OPEN already (R56). -/
theorem openBatchRule_open {id : Nat} {b : Batch} (h : s.loadError = false) (ho : s.openBatch = some b) :
    openBatchRule id s = s.sequenceViolation.reply .state := by simp [openBatchRule, h, ho]

theorem openBatchRule_zero (h : s.loadError = false) (ho : s.openBatch = none) : openBatchRule 0 s = s.reply .badArg := by
  simp [openBatchRule, h, ho]

section
variable {id : Nat} (h : s.loadError = false) (ho : s.openBatch = none) (hid : id ≠ 0)
include h ho hid

theorem openBatchRule_dup {b : Batch} (hb : s.batchOf id = some b) : openBatchRule id s = s.reply .dupId := by
  simp [openBatchRule, h, ho, hid, hb]

theorem openBatchRule_full (hb : s.batchOf id = none) (hp : s.batchPlace = none) : openBatchRule id s = s.reply .tableFull := by
  simp [openBatchRule, h, ho, hid, hb, hp]

theorem openBatchRule_ok {i : Fin 4} (hb : s.batchOf id = none) (hp : s.batchPlace = some i) :
    openBatchRule id s = State.reply { s with batches := s.batches.set i (some (.fresh id)) } .ok := by
  simp [openBatchRule, h, ho, hid, hb, hp]

end
end

/-- Settles O19: the rule's outcomes in their order, with the record `batchPlace` gives. -/
theorem openBatchJudged : Obligations.OpenBatchJudged := by
  intro s p seq id hT
  refine ⟨fun h => ⟨_, rfl, hT.completes_same seq _ (openBatchRule_flag h)⟩, fun h ho => ⟨?_, fun b hid hb => ?_, fun hid hb =>
    ⟨fun hfull => ?_, fun i hi => ?_⟩⟩⟩
  · rintro rfl
    exact ⟨_, rfl, hT.completes_same seq _ (openBatchRule_zero h ho)⟩
  · exact ⟨_, rfl, hT.completes_same seq _ (openBatchRule_dup h ho hid hb)⟩
  · exact ⟨_, rfl, hT.completes_same seq _ (openBatchRule_full h ho hid hb (State.batchPlace_eq_none hfull))⟩
  · have hrule := openBatchRule_ok (s := s.takeInHand p ReqCode.openBatch.number seq) h ho hid hb (State.batchPlace_eq_some hi)
    exact ⟨_, rfl, (State.request_completes hT seq _ hrule fun _ => Port.Carries.refl _).congr rfl⟩

/-! ### An abandoned batch (R57) -/

/-- Records of a list put on a free list in their order (R48). -/
theorem foldl_cons_eq_reverse_append {α : Type} (l m : List α) : l.foldl (fun m a => a :: m) m = l.reverse ++ m := by
  induction l generalizing m with
  | nil => rfl
  | cons a l ih => simp [ih]

/-- The records of a list become FREE. -/
theorem Table.get_foldl_set_none {n : Nat} {α : Type} (l : List (Fin n)) (t : Table n (Option α)) (i : Fin n) :
    (l.foldl (fun t id => t.set id none) t).get i = if i ∈ l then none else t.get i := by
  induction l generalizing t with
  | nil => rfl
  | cons a l ih =>
    rw [List.foldl_cons, ih, Table.get_set]
    by_cases hl : i ∈ l
    · simp [hl]
    · simp [hl, eq_comm]

theorem State.abandons_abandon (s : State) (b : Batch) : s.Abandons (s.abandon b) b where
  rest := by
    have hf : (s.abandon b).free = b.staging.reverse ++ s.free := foldl_cons_eq_reverse_append _ _
    rw [← hf]
    rfl
  gone id hid := (Table.get_foldl_set_none b.staging s.pool id).trans (if_pos hid)
  kept id hid := (Table.get_foldl_set_none b.staging s.pool id).trans (if_neg hid)
  record i := by
    simp only [State.abandon, Table.get_map]
    cases s.batches.get i <;> simp

section
variable {s : State}

theorem State.sequenceViolation_open {b : Batch} (h : s.openBatch = some b) :
    s.sequenceViolation = { s.abandon b with loadError := true } := by simp [State.sequenceViolation, h]

theorem State.sequenceViolation_none (h : s.openBatch = none) : s.sequenceViolation = { s with loadError := true } := by
  simp [State.sequenceViolation, h]

theorem commitBatchRule_noBatch {id : Nat} (h : s.loadError = false) (ho : s.openBatch = none) :
    commitBatchRule id s = s.sequenceViolation.reply .noBatch := by simp [commitBatchRule, h, ho]

/-- The id given is not the open batch's (R56). -/
theorem commitBatchRule_other {id : Nat} {b : Batch} (h : s.loadError = false) (ho : s.openBatch = some b) (hid : b.id ≠ id) :
    commitBatchRule id s = s.sequenceViolation.reply .noBatch := by simp [commitBatchRule, h, ho, hid]

theorem loadSegmentRule_noBatch {d : Descriptor} (h : s.loadError = false) (ho : s.openBatch = none) :
    loadSegmentRule d s = s.sequenceViolation.reply .noBatch := by simp [loadSegmentRule, h, ho]

theorem cancelOpenRule_none (ho : s.openBatch = none) : cancelOpenRule s = s.reply .noBatch := by simp [cancelOpenRule, ho]

theorem cancelOpenRule_open {b : Batch} (ho : s.openBatch = some b) : cancelOpenRule s = (s.abandon b).reply .ok := by
  simp [cancelOpenRule, ho]

/-- A request that violates the sequence with a batch OPEN (R56). -/
theorem State.Takes.completes_violation {p : PortId} {c : ReqCode} {r : Role} (hT : s.Takes p r c) (seq : Nat)
    (rule : State → Reply) {res : Result} {b : Batch} (ho : s.openBatch = some b)
    (hr : rule (s.takeInHand p c.number seq) = (s.takeInHand p c.number seq).sequenceViolation.reply res) :
    s.Completes (s.request p c seq rule) p (c.answer seq res .none) { s.abandon b with loadError := true } := by
  rw [State.sequenceViolation_open (s := s.takeInHand p c.number seq) ho] at hr
  exact (State.request_completes hT seq rule hr fun _ => Port.Carries.refl _).congr rfl

/-- The same with no batch OPEN. -/
theorem State.Takes.completes_violation_none {p : PortId} {c : ReqCode} {r : Role} (hT : s.Takes p r c) (seq : Nat)
    (rule : State → Reply) {res : Result} (ho : s.openBatch = none)
    (hr : rule (s.takeInHand p c.number seq) = (s.takeInHand p c.number seq).sequenceViolation.reply res) :
    s.Completes (s.request p c seq rule) p (c.answer seq res .none) { s with loadError := true } := by
  rw [State.sequenceViolation_none (s := s.takeInHand p c.number seq) ho] at hr
  exact (State.request_completes hT seq rule hr fun _ => Port.Carries.refl _).congr rfl

end

/-- Settles O20: each violation is the same change of state, CANCEL_OPEN the abandon without the flag. -/
theorem sequenceViolations : Obligations.SequenceViolations := by
  refine ⟨fun s p seq id b hT h ho => ?_, fun s p seq id b hT h ho hid => ?_, fun s p seq id hT h ho => ?_,
    fun s p seq d hT h ho => ?_, fun s p seq hT => ⟨fun ho => ?_, fun b ho => ?_⟩, fun s p seq hT => ?_⟩
  · exact ⟨_, _, rfl, s.abandons_abandon b, hT.completes_violation seq _ ho (openBatchRule_open h ho)⟩
  · exact ⟨_, _, rfl, s.abandons_abandon b, hT.completes_violation seq _ ho (commitBatchRule_other h ho hid)⟩
  · exact ⟨_, rfl, hT.completes_violation_none seq _ ho (commitBatchRule_noBatch h ho)⟩
  · exact ⟨_, rfl, hT.completes_violation_none seq _ ho (loadSegmentRule_noBatch h ho)⟩
  · exact ⟨_, rfl, hT.completes_same seq _ (cancelOpenRule_none ho)⟩
  · have hrule := cancelOpenRule_open (s := s.takeInHand p ReqCode.cancelOpen.number seq) ho
    exact ⟨_, _, rfl, s.abandons_abandon b, (State.request_completes hT seq _ hrule fun _ => Port.Carries.refl _).congr rfl⟩
  · exact ⟨_, rfl, (State.request_completes hT seq _ (u := { s.takeInHand p ReqCode.ackLoadError.number seq with loadError := false }) rfl
      fun _ => Port.Carries.refl _).congr rfl⟩

end Sys2Proof.Machine
end


section
/-! SUPPORT. Segment descriptors in range (R44). -/

namespace Sys2Proof.Machine

theorem inRange_isSome {n k : Nat} : (inRange n k).isSome = true ↔ k < n := by
  unfold inRange
  split <;> simp_all

/-- A list of numbers below `n` names that many members of `Fin n`. -/
theorem exists_map_val {n : Nat} {l : List Nat} (h : ∀ k ∈ l, k < n) : ∃ c : List (Fin n), l = c.map Fin.val :=
  ⟨l.pmap Fin.mk h, by simp [List.map_pmap]⟩

theorem cellList_isSome {lo hi : Nat} {l : List Nat} :
    (cellList lo hi l).isSome = true ↔ lo ≤ l.length ∧ l.length ≤ hi ∧ l.Nodup ∧ ∀ c ∈ l, c ≤ 2047 := by
  rw [Option.isSome_iff_exists]
  constructor
  · rintro ⟨c, hc⟩
    obtain ⟨rfl, h1, h2, h3⟩ := cellList_eq_some.1 hc
    refine ⟨by simpa using h1, by simpa using h2, h3.map Fin.val_injective, fun k hk => ?_⟩
    obtain ⟨a, -, rfl⟩ := List.mem_map.1 hk
    omega
  · rintro ⟨h1, h2, h3, h4⟩
    obtain ⟨c, rfl⟩ := exists_map_val (n := 2048) fun k hk => Nat.lt_succ_of_le (h4 k hk)
    exact ⟨c, cellList_eq_some.2 ⟨rfl, by simpa using h1, by simpa using h2, h3.of_map _⟩⟩

/-- The sweep and end lists of a MOVE, TRIM or DATUM in range (R44). -/
theorem sweepEnds_isSome {sweep ends : List Nat} :
    (sweepEnds sweep ends).isSome = true ↔
      1 ≤ sweep.length ∧ sweep.length ≤ 16 ∧ sweep.Nodup ∧ (∀ c ∈ sweep, c ≤ 2047) ∧
        1 ≤ ends.length ∧ ends.length ≤ 8 ∧ ends.Nodup ∧ ∀ c ∈ ends, c ∈ sweep := by
  have hsub : ∀ {w e : List CellId}, sweep = w.map Fin.val → ends = e.map Fin.val →
      ((∀ c ∈ e, c ∈ w) ↔ ∀ c ∈ ends, c ∈ sweep) := by
    rintro w e rfl rfl
    simp only [List.forall_mem_map, List.mem_map_of_injective Fin.val_injective]
  constructor
  · intro h
    unfold sweepEnds at h
    split at h
    · rename_i w e hw he
      split at h
      · rename_i hall
        obtain ⟨w1, w2, w3, w4⟩ := cellList_isSome.1 (Option.isSome_of_eq_some hw)
        obtain ⟨e1, e2, e3, -⟩ := cellList_isSome.1 (Option.isSome_of_eq_some he)
        refine ⟨w1, w2, w3, w4, e1, e2, e3, (hsub (cellList_eq_some.1 hw).1 (cellList_eq_some.1 he).1).1 ?_⟩
        simpa using hall
      · cases h
    · cases h
  · rintro ⟨w1, w2, w3, w4, e1, e2, e3, hs⟩
    obtain ⟨w, hw⟩ := Option.isSome_iff_exists.1 (cellList_isSome.2 ⟨w1, w2, w3, w4⟩)
    obtain ⟨e, he⟩ := Option.isSome_iff_exists.1 (cellList_isSome.2 ⟨e1, e2, e3, fun c hc => w4 c (hs c hc)⟩)
    have hall : e.all (· ∈ w) = true := by
      simpa using (hsub (cellList_eq_some.1 hw).1 (cellList_eq_some.1 he).1).2 hs
    simp only [sweepEnds, hw, he, hall, if_true, Option.isSome_some]

theorem withinBy_iff {x : Int} {n : Nat} : withinBy x n = true ↔ x.natAbs ≤ n := by
  simp only [withinBy, Bool.and_eq_true, decide_eq_true_eq]
  omega

theorem axisOf_isSome (n : Nat) : (axisOf n).isSome = true ↔ 1 ≤ n ∧ n ≤ 3 :=
  match n with
  | 0 => by simp [axisOf]
  | 1 => by simp [axisOf]
  | 2 => by simp [axisOf]
  | 3 => by simp [axisOf]
  | n + 4 => by simp [axisOf]

section
variable {d : Descriptor}

/-- A MOVE or TRIM within its limits of steps. -/
theorem steps_isSome {f : Fin 4 → List CellId → List CellId → SegBody} {t p : Nat} :
    (match inRange 4 d.rate, sweepEnds d.sweep d.ends with
      | some r, some (w, e) => if withinBy d.dTheta t && withinBy d.dPhi p then some (f r w e) else none
      | _, _ => none).isSome = true ↔
      d.rate ≤ 3 ∧ (sweepEnds d.sweep d.ends).isSome = true ∧ d.dTheta.natAbs ≤ t ∧ d.dPhi.natAbs ≤ p := by
  rw [← Nat.lt_succ_iff, ← inRange_isSome (n := 4), ← withinBy_iff, ← withinBy_iff]
  rcases inRange 4 d.rate with _ | r
  · simp
  · rcases sweepEnds d.sweep d.ends with _ | ⟨w, e⟩
    · simp
    · cases withinBy d.dTheta t <;> cases withinBy d.dPhi p <;> simp

theorem segBody_isSome_move (h : d.kind = 1) : (Descriptor.segBody d).isSome = true ↔
    d.rate ≤ 3 ∧ (sweepEnds d.sweep d.ends).isSome = true ∧ d.dTheta.natAbs ≤ 24000 ∧ d.dPhi.natAbs ≤ 12000 := by
  rw [← steps_isSome (f := .move d.dTheta d.dPhi), Descriptor.segBody, h]
  rfl

theorem segBody_isSome_trim (h : d.kind = 2) : (Descriptor.segBody d).isSome = true ↔
    d.rate ≤ 3 ∧ (sweepEnds d.sweep d.ends).isSome = true ∧ d.dTheta.natAbs ≤ 255 ∧ d.dPhi.natAbs ≤ 255 := by
  rw [← steps_isSome (f := .trim d.dTheta d.dPhi), Descriptor.segBody, h]
  rfl

theorem segBody_isSome_datum (h : d.kind = 3) : (Descriptor.segBody d).isSome = true ↔
    d.rate ≤ 3 ∧ (sweepEnds d.sweep d.ends).isSome = true ∧ 1 ≤ d.axis ∧ d.axis ≤ 3 := by
  rw [← Nat.lt_succ_iff, ← inRange_isSome (n := 4), ← axisOf_isSome, Descriptor.segBody, h]
  rcases axisOf d.axis with _ | a
  · simp
  · rcases inRange 4 d.rate with _ | r
    · simp
    · rcases sweepEnds d.sweep d.ends with _ | ⟨w, e⟩ <;> simp

theorem segBody_isSome_dwell (h : d.kind = 4) :
    (Descriptor.segBody d).isSome = true ↔ 1 ≤ d.duration ∧ d.duration ≤ 60000 := by
  rw [Descriptor.segBody, h]
  simp

/-- No other kind is one (R44). -/
theorem segBody_eq_none (h1 : d.kind ≠ 1) (h2 : d.kind ≠ 2) (h3 : d.kind ≠ 3) (h4 : d.kind ≠ 4) : Descriptor.segBody d = none := by
  unfold Descriptor.segBody
  split <;> first | contradiction | rfl

theorem read_isSome : (Descriptor.read d).isSome = true ↔ d.slot ≤ 95 ∧ (Descriptor.segBody d).isSome = true := by
  rw [← Nat.lt_succ_iff, ← inRange_isSome (n := 96), Descriptor.read]
  rcases inRange 96 d.slot with _ | n
  · simp
  · cases Descriptor.segBody d <;> simp

end

/-- Settles O21: by the descriptor's kind. -/
theorem descriptorRanges : Obligations.DescriptorRanges := by
  intro d
  rw [← Option.isSome_iff_exists, read_isSome]
  refine and_congr_right fun _ => ?_
  by_cases h1 : d.kind = 1
  · rw [segBody_isSome_move h1, sweepEnds_isSome]
    simp [h1, and_assoc]
  · by_cases h2 : d.kind = 2
    · rw [segBody_isSome_trim h2, sweepEnds_isSome]
      simp [h2, and_assoc]
    · by_cases h3 : d.kind = 3
      · rw [segBody_isSome_datum h3, sweepEnds_isSome]
        simp [h3, and_assoc]
      · by_cases h4 : d.kind = 4
        · rw [segBody_isSome_dwell h4]
          simp [h4]
        · rw [segBody_eq_none h1 h2 h3 h4]
          simp [h1, h2, h3, h4]

end Sys2Proof.Machine
end


section
/-! SUPPORT. LOAD_SEGMENT (R55, R56): the rule's outcomes in their order. -/

namespace Sys2Proof.Machine

section
variable {s : State}

theorem State.keepout_iff {l : List CellId} : s.keepout l = true ↔ ∃ c ∈ l, c ∈ s.fixed := by simp [State.keepout]

theorem State.not_keepout {l : List CellId} (hk : ∀ c ∈ l, c ∉ s.fixed) : ¬ s.keepout l = true := fun e => by
  obtain ⟨c, hc, hf⟩ := State.keepout_iff.1 e
  exact hk c hc hf

/-- Of a list of links, some two differ. -/
theorem twoLinks_iff {l : List LinkId} :
    (match l with
      | [] => false
      | k :: l => l.any fun j => decide (j ≠ k)) = true ↔ ∃ j ∈ l, ∃ k ∈ l, j ≠ k := by
  cases l with
  | nil => simp
  | cons k l =>
    simp only [List.any_eq_true, decide_eq_true_eq]
    constructor
    · rintro ⟨j, hj, hne⟩
      exact ⟨j, List.mem_cons_of_mem _ hj, k, List.mem_cons_self, hne⟩
    · rintro ⟨i, hi, j, hj, hne⟩
      by_cases hik : i = k
      · refine ⟨j, ?_, fun e => hne (hik.trans e.symm)⟩
        exact (List.mem_cons.1 hj).resolve_left fun e => hne (hik.trans e.symm)
      · exact ⟨i, (List.mem_cons.1 hi).resolve_left hik, hik⟩

theorem State.twoLinks_iff {l : List CellId} :
    s.twoLinks l = true ↔ ∃ a ∈ l, ∃ c ∈ l, ∃ j k, s.remoteLink a = some j ∧ s.remoteLink c = some k ∧ j ≠ k := by
  refine (Machine.twoLinks_iff (l := l.filterMap s.remoteLink)).trans ?_
  simp only [List.mem_filterMap]
  constructor
  · rintro ⟨j, ⟨a, ha, hj⟩, k, ⟨c, hc, hk⟩, hne⟩
    exact ⟨a, ha, c, hc, j, k, hj, hk, hne⟩
  · rintro ⟨a, ha, c, hc, j, k, hj, hk, hne⟩
    exact ⟨j, ⟨a, ha, hj⟩, k, ⟨c, hc, hk⟩, hne⟩

theorem loadSegmentRule_flag {d : Descriptor} (h : s.loadError = true) : loadSegmentRule d s = s.reply .loadErrorSet := if_pos h

/-- The state with a segment staged (R55). -/
def State.stage (s : State) (b : Batch) (n : SlotId) (body : SegBody) (tag : Nat) (id : SegId) (rest : List SegId) : State :=
  (s.takeRecord id rest
    { slot := n, body := body, tag := tag, batch := some b.id, state := .staged, continuation := false }).updBatch b.id fun r =>
    { r with loaded := r.loaded + 1, staging := r.staging ++ [id] }

section
variable {d : Descriptor} {b : Batch} (ho : s.openBatch = some b) (h : s.loadError = false)
include ho h

theorem loadSegmentRule_badArg (hd : Descriptor.read d = none) : loadSegmentRule d s = s.reply .badArg := by
  simp [loadSegmentRule, h, ho, hd]

/-- What LOAD_SEGMENT does with a descriptor in range. -/
theorem loadSegmentRule_read {n : SlotId} {body : SegBody} (hd : Descriptor.read d = some (n, body)) :
    loadSegmentRule d s =
      if (s.slot n).state = .absent then s.reply .absent
      else if (s.slot n).state = .retired then s.reply .retired
      else if s.keepout body.sweep then s.reply .keepout
      else if s.twoLinks body.sweep then s.reply .twoLinks
      else
        match s.free with
        | [] => s.reply .poolEmpty
        | id :: rest =>
          if chainRoom < s.stagedFor b n + (s.slot n).chain.length + 1 then s.reply .chainFull
          else (s.stage b n body d.tag id rest).replyWith (.segment id) := by
  simp only [loadSegmentRule, h, ho, hd, Bool.false_eq_true, if_false]
  rfl

section
variable {n : SlotId} {body : SegBody} (hd : Descriptor.read d = some (n, body))
include hd

theorem loadSegmentRule_absent (h0 : (s.slot n).state = .absent) : loadSegmentRule d s = s.reply .absent := by
  rw [loadSegmentRule_read ho h hd, if_pos h0]

theorem loadSegmentRule_retired (h1 : (s.slot n).state = .retired) : loadSegmentRule d s = s.reply .retired := by
  rw [loadSegmentRule_read ho h hd, if_neg (by rw [h1]; decide), if_pos h1]

section
variable (h0 : (s.slot n).state ≠ .absent) (h1 : (s.slot n).state ≠ .retired)
include h0 h1

theorem loadSegmentRule_keepout (hk : ∃ c ∈ body.sweep, c ∈ s.fixed) : loadSegmentRule d s = s.reply .keepout := by
  rw [loadSegmentRule_read ho h hd, if_neg h0, if_neg h1, if_pos (State.keepout_iff.2 hk)]

section
variable (hk : ∀ c ∈ body.sweep, c ∉ s.fixed)
include hk

theorem loadSegmentRule_twoLinks
    (ht : ∃ a ∈ body.sweep, ∃ c ∈ body.sweep, ∃ j k, s.remoteLink a = some j ∧ s.remoteLink c = some k ∧ j ≠ k) :
    loadSegmentRule d s = s.reply .twoLinks := by
  rw [loadSegmentRule_read ho h hd, if_neg h0, if_neg h1, if_neg (State.not_keepout hk), if_pos (State.twoLinks_iff.2 ht)]

/-- A descriptor that no refusal but those of pool and chain meets. -/
theorem loadSegmentRule_room
    (ht : ∀ a ∈ body.sweep, ∀ c ∈ body.sweep, ∀ j k, s.remoteLink a = some j → s.remoteLink c = some k → j = k) :
    loadSegmentRule d s =
      match s.free with
      | [] => s.reply .poolEmpty
      | id :: rest =>
        if chainRoom < s.stagedFor b n + (s.slot n).chain.length + 1 then s.reply .chainFull
        else (s.stage b n body d.tag id rest).replyWith (.segment id) := by
  have ht' : ¬ s.twoLinks body.sweep = true := fun e => by
    obtain ⟨a, ha, c, hc, j, k, hj, hk', hne⟩ := State.twoLinks_iff.1 e
    exact hne (ht a ha c hc j k hj hk')
  rw [loadSegmentRule_read ho h hd, if_neg h0, if_neg h1, if_neg (State.not_keepout hk), if_neg ht']

end
end
end
end
end

/-- Settles O22: the rule's outcomes in their order. -/
theorem loadSegmentJudged : Obligations.LoadSegmentJudged := by
  refine ⟨fun s p seq d hT h => ⟨_, rfl, hT.completes_same seq _ (loadSegmentRule_flag h)⟩, fun s p seq d b hT ho =>
    ⟨fun h hd => ⟨_, rfl, hT.completes_same seq _ (loadSegmentRule_badArg ho h hd)⟩, fun n body h hd =>
    ⟨fun h0 => ⟨_, rfl, hT.completes_same seq _ (loadSegmentRule_absent ho h hd h0)⟩,
      fun h1 => ⟨_, rfl, hT.completes_same seq _ (loadSegmentRule_retired ho h hd h1)⟩, fun h0 h1 =>
      ⟨fun hk => ⟨_, rfl, hT.completes_same seq _ (loadSegmentRule_keepout ho h hd h0 h1 hk)⟩, fun hk =>
        ⟨fun ht => ⟨_, rfl, hT.completes_same seq _ (loadSegmentRule_twoLinks ho h hd h0 h1 hk ht)⟩, fun ht => ?_⟩⟩⟩⟩⟩
  have hroom := loadSegmentRule_room (s := s.takeInHand p ReqCode.loadSegment.number seq) ho h hd h0 h1 hk ht
  refine ⟨fun hf => ⟨_, rfl, hT.completes_same seq _ ?_⟩, fun id rest hf =>
    ⟨fun hc => ⟨_, rfl, hT.completes_same seq _ ?_⟩, fun hc => ?_⟩⟩
  · rw [hroom, show (s.takeInHand p ReqCode.loadSegment.number seq).free = [] from hf]
    rfl
  · rw [hroom, show (s.takeInHand p ReqCode.loadSegment.number seq).free = id :: rest from hf]
    exact if_pos hc
  · rw [show (s.takeInHand p ReqCode.loadSegment.number seq).free = id :: rest from hf] at hroom
    have hrule := hroom.trans (if_neg (Nat.not_lt.2 hc))
    exact ⟨_, rfl, (State.request_completes hT seq _ hrule fun _ => Port.Carries.refl _).congr rfl⟩

end Sys2Proof.Machine
end


section
/-! SUPPORT. The batch table and the segment pool: the record that an id names, what the end of a batch leaves (R60, R62), what the
close of a segment leaves (R49), and what a judgement of the grant queue leaves (R75). -/

namespace Sys2Proof.Machine

/-! ### Records of a table -/

theorem Table.mem_items {n : Nat} {α : Type} {t : Table n α} {a : α} : a ∈ t.items ↔ ∃ i, t.get i = a := by
  rw [List.mem_iff_getElem]
  constructor
  · rintro ⟨i, hi, rfl⟩
    exact ⟨⟨i, by rw [← t.size]; exact hi⟩, rfl⟩
  · rintro ⟨i, rfl⟩
    exact ⟨i.val, by rw [t.size]; exact i.isLt, rfl⟩

/-- No two batch records have the same id (R51). -/
def State.IdsOnce (s : State) : Prop :=
  ∀ i j x y, s.batches.get i = some x → s.batches.get j = some y → x.id = y.id → i = j

section
variable {s : State}

theorem State.mem_records {b : Batch} : b ∈ (s.batches.items.filterMap fun b => b) ↔ ∃ i, s.batches.get i = some b := by
  rw [List.mem_filterMap, ← Table.mem_items]
  exact ⟨fun ⟨_, h, e⟩ => e ▸ h, fun h => ⟨_, h, rfl⟩⟩

theorem State.batchOf_mem {id : Nat} {b : Batch} (h : s.batchOf id = some b) : (∃ i, s.batches.get i = some b) ∧ b.id = id :=
  ⟨State.mem_records.1 (List.mem_of_find?_eq_some h), by simpa using List.find?_some h⟩

theorem State.batchOf_eq_none {id : Nat} : s.batchOf id = none ↔ ∀ i b, s.batches.get i = some b → b.id ≠ id := by
  simp only [State.batchOf, List.find?_eq_none, State.mem_records, decide_eq_true_eq]
  exact ⟨fun h i b hb => h b ⟨i, hb⟩, fun h b ⟨i, hb⟩ => h i b hb⟩

theorem State.openBatch_mem {b : Batch} (h : s.openBatch = some b) : (∃ i, s.batches.get i = some b) ∧ b.state = .opened :=
  ⟨State.mem_records.1 (List.mem_of_find?_eq_some h), by simpa using List.find?_some h⟩

theorem State.openBatch_eq_none : s.openBatch = none ↔ ∀ i b, s.batches.get i = some b → b.state ≠ .opened := by
  simp only [State.openBatch, List.find?_eq_none, State.mem_records, decide_eq_true_eq]
  exact ⟨fun h i b hb => h b ⟨i, hb⟩, fun h b ⟨i, hb⟩ => h i b hb⟩

/-- Ids being unique, the record that an id names is the one that has it. -/
theorem State.IdsOnce.batchOf (h : s.IdsOnce) {i : Fin 4} {b : Batch} (hb : s.batches.get i = some b) : s.batchOf b.id = some b := by
  cases hc : s.batchOf b.id with
  | none => exact absurd rfl (State.batchOf_eq_none.1 hc i b hb)
  | some c =>
    obtain ⟨⟨j, hj⟩, hid⟩ := State.batchOf_mem hc
    have := h i j b c hb hj hid.symm
    subst this
    rw [hb] at hj
    exact hj.symm

end

/-! ### Ends of batches (R60, R62) -/

theorem insertBy_perm {α : Type} (le : α → α → Bool) (a : α) (l : List α) : (insertBy le a l).Perm (a :: l) := by
  induction l with
  | nil => exact .refl _
  | cons b l ih =>
    unfold insertBy
    split
    · exact .refl _
    · exact (ih.cons b).trans (.swap a b l)

theorem sortBy_perm {α : Type} (le : α → α → Bool) (l : List α) : (sortBy le l).Perm l := by
  induction l with
  | nil => exact .refl _
  | cons a l ih => exact (insertBy_perm le a _).trans (ih.cons a)

/-- The record of a batch that has ended, as the `k`-th (R53, R60, R62). -/
def Batch.ended (k : Nat) (b : Batch) : Batch :=
  { b with state := if b.state = .aborting then .aborted else .done, endOrder := some k }

theorem State.fireArm_batches (s : State) : s.fireArm.batches = s.batches := by
  unfold State.fireArm
  split <;> rfl

theorem State.get_endBatch (s : State) (b : Batch) (i : Fin 4) :
    (s.endBatch b).batches.get i = (s.batches.get i).map fun r =>
      if r.id = b.id then { r with state := if b.state = .aborting then .aborted else .done, endOrder := some s.endCount }
      else r := by
  unfold State.endBatch
  rw [State.fireArm_batches]
  simp only [State.raise, State.updBatch, Table.get_map, decide_eq_true_eq]

/-- The batches of a list end one after another, each as its record stands. -/
theorem State.get_endBatch_foldl {l : List Batch} {s : State} (hn : (l.map Batch.id).Nodup)
    (hl : ∀ b ∈ l, ∀ i x, s.batches.get i = some x → x.id = b.id → x = b) (i : Fin 4) :
    (s.batches.get i = none → (l.foldl State.endBatch s).batches.get i = none) ∧
      ∀ x, s.batches.get i = some x → (x ∈ l → ∃ k, (l.foldl State.endBatch s).batches.get i = some (x.ended k)) ∧
        (x ∉ l → (l.foldl State.endBatch s).batches.get i = some x) := by
  induction l generalizing s with
  | nil => exact ⟨fun h => h, fun x hx => ⟨nofun, fun _ => hx⟩⟩
  | cons b l ih =>
    rw [List.map_cons, List.nodup_cons] at hn
    obtain ⟨hb, hn⟩ := hn
    have hget := s.get_endBatch b
    have hne : ∀ c ∈ l, c.id ≠ b.id := fun c hc e => hb (e ▸ List.mem_map_of_mem hc)
    have hl' : ∀ c ∈ l, ∀ i x, (s.endBatch b).batches.get i = some x → x.id = c.id → x = c := by
      intro c hc i x hx hid
      rw [hget, Option.map_eq_some_iff] at hx
      obtain ⟨y, hy, rfl⟩ := hx
      split at hid
      · rename_i hyb
        exact absurd (hid.symm.trans hyb) (hne c hc)
      · rename_i hyb
        rw [if_neg hyb]
        exact hl c (List.mem_cons_of_mem _ hc) i y hy hid
    obtain ⟨ih0, ih1⟩ := ih hn hl'
    refine ⟨fun h => ih0 (by rw [hget, h]; rfl), fun x hx => ?_⟩
    by_cases hid : x.id = b.id
    · have hxb := hl b List.mem_cons_self i x hx hid
      subst hxb
      have hx' : (s.endBatch x).batches.get i = some (x.ended s.endCount) := by
        rw [hget, hx]
        exact congrArg some (if_pos rfl)
      refine ⟨fun _ => ⟨_, (ih1 _ hx').2 fun hm => hne _ hm rfl⟩, fun h => absurd List.mem_cons_self h⟩
    · have hx' : (s.endBatch b).batches.get i = some x := by
        rw [hget, hx]
        exact congrArg some (if_neg hid)
      have hxb : x ≠ b := fun e => hid (congrArg Batch.id e)
      refine ⟨fun h => (ih1 x hx').1 ((List.mem_cons.1 h).resolve_left hxb), fun h => (ih1 x hx').2 fun hm => h (List.mem_cons_of_mem _ hm)⟩

theorem State.IdsOnce.nodup_records {s : State} (h : s.IdsOnce) : ((s.batches.items.filterMap fun b => b).map Batch.id).Nodup := by
  have hp : s.batches.items.Pairwise fun a b => ∀ x, a = some x → ∀ y, b = some y → x.id ≠ y.id := by
    rw [List.pairwise_iff_getElem]
    intro i j hi hj hij x hx y hy e
    have := h ⟨i, by rw [← s.batches.size]; exact hi⟩ ⟨j, by rw [← s.batches.size]; exact hj⟩ x y hx hy e
    simp only [Fin.mk.injEq] at this
    omega
  rw [List.Nodup, List.pairwise_map, List.pairwise_filterMap]
  exact hp.imp fun h x hx y hy => h x hx y hy

/-- Ids being unique, every finished batch ends and every other record stays (R60, R62). -/
theorem State.IdsOnce.get_endBatches {s : State} (h : s.IdsOnce) (i : Fin 4) :
    (s.batches.get i = none → s.endBatches.batches.get i = none) ∧
      ∀ x, s.batches.get i = some x → (x.finished = true → ∃ k, s.endBatches.batches.get i = some (x.ended k)) ∧
        (x.finished = false → s.endBatches.batches.get i = some x) := by
  have hperm := sortBy_perm (fun a b => decide (a.id ≤ b.id)) ((s.batches.items.filterMap fun b => b).filter Batch.finished)
  have hmem : ∀ b, b ∈ sortBy (fun a b => decide (a.id ≤ b.id)) ((s.batches.items.filterMap fun b => b).filter Batch.finished) ↔
      (∃ i, s.batches.get i = some b) ∧ b.finished = true := fun b => by
    rw [hperm.mem_iff, List.mem_filter, State.mem_records]
  have hnodup := (hperm.map Batch.id).nodup_iff.2 (h.nodup_records.sublist (List.filter_sublist.map _))
  obtain ⟨h0, h1⟩ := State.get_endBatch_foldl hnodup (fun b hb j x hx e => by
    obtain ⟨⟨k, hk⟩, -⟩ := (hmem b).1 hb
    have := h j k x b hx hk e
    subst this
    rw [hx] at hk
    exact Option.some.inj hk) i
  exact ⟨h0, fun x hx => ⟨fun hf => (h1 x hx).1 ((hmem x).2 ⟨⟨i, hx⟩, hf⟩),
    fun hf => (h1 x hx).2 fun hm => by rw [((hmem x).1 hm).2] at hf; cases hf⟩⟩

/-- The records behind the ends of batches: as before, or ended (R60, R62). -/
theorem State.IdsOnce.of_endBatches {s : State} (h : s.IdsOnce) {i : Fin 4} {y : Batch} (hy : s.endBatches.batches.get i = some y) :
    ∃ x, s.batches.get i = some x ∧ (y = x ∨ x.finished = true ∧ ∃ k, y = x.ended k) := by
  obtain ⟨h0, h1⟩ := h.get_endBatches i
  cases hx : s.batches.get i with
  | none => rw [h0 hx] at hy; cases hy
  | some x =>
    refine ⟨x, rfl, ?_⟩
    cases hf : x.finished with
    | false =>
      rw [(h1 x hx).2 hf] at hy
      exact .inl (Option.some.inj hy).symm
    | true =>
      obtain ⟨k, hk⟩ := (h1 x hx).1 hf
      rw [hk] at hy
      exact .inr ⟨rfl, k, (Option.some.inj hy).symm⟩

theorem State.IdsOnce.endBatches {s : State} (h : s.IdsOnce) : s.endBatches.IdsOnce := by
  have hid : ∀ {x y : Batch}, (y = x ∨ x.finished = true ∧ ∃ k, y = x.ended k) → y.id = x.id := by
    rintro x y (rfl | ⟨-, k, rfl⟩) <;> rfl
  intro i j x y hx hy e
  obtain ⟨x', hx', ex⟩ := h.of_endBatches hx
  obtain ⟨y', hy', ey⟩ := h.of_endBatches hy
  exact h i j x' y' hx' hy' ((hid ex).symm.trans (e.trans (hid ey)))

/-! ### The judgement of the grant queue (R73 to R75) -/

/-- From `s` to `t` the grant queue was judged, or claims withdrawn: slots changed their state alone, and no held set. -/
structure State.Rejudged (s t : State) : Prop where
  rest : t = { s with slots := t.slots, cells := t.cells, queue := t.queue, links := t.links, scanDue := t.scanDue }
  slots : ∀ n, ∃ st, t.slot n = { s.slot n with state := st }
  held : ∀ c n, (t.cell c).owner = .held n ↔ (s.cell c).owner = .held n

theorem State.Rejudged.refl (s : State) : s.Rejudged s := ⟨rfl, fun _ => ⟨_, rfl⟩, fun _ _ => .rfl⟩

theorem State.Rejudged.trans {s t u : State} (h : s.Rejudged t) (k : t.Rejudged u) : s.Rejudged u where
  rest := k.rest.trans (congrArg (fun v : State =>
    { v with slots := u.slots, cells := u.cells, queue := u.queue, links := u.links, scanDue := u.scanDue }) h.rest)
  slots n := by
    obtain ⟨a, ha⟩ := h.slots n
    obtain ⟨b, hb⟩ := k.slots n
    exact ⟨b, by rw [hb, ha]⟩
  held c n := (k.held c n).trans (h.held c n)

theorem State.Rejudged.foldl {α : Type} {f : State → α → State} (hf : ∀ (s : State) a, s.Rejudged (f s a)) (l : List α) (s : State) :
    s.Rejudged (l.foldl f s) := by
  induction l generalizing s with
  | nil => exact .refl s
  | cons a l ih => exact (hf s a).trans (ih _)

section
variable (s : State)

theorem State.rejudged_updSlot (n : SlotId) {f : Slot → Slot} (hf : ∀ sl, ∃ st, f sl = { sl with state := st }) :
    s.Rejudged (s.updSlot n f) where
  rest := rfl
  slots m := by
    by_cases e : n = m
    · subst e; rw [State.slot_updSlot_self]; exact hf _
    · rw [State.slot_updSlot_ne _ _ e]; exact ⟨_, rfl⟩
  held _ _ := .rfl

theorem State.rejudged_queue (x : List QEntry) : s.Rejudged { s with queue := x } := ⟨rfl, fun _ => ⟨_, rfl⟩, fun _ _ => .rfl⟩
theorem State.rejudged_causeScan : s.Rejudged s.causeScan := ⟨rfl, fun _ => ⟨_, rfl⟩, fun _ _ => .rfl⟩
theorem State.rejudged_updLink (k : LinkId) (f : Link → Link) : s.Rejudged (s.updLink k f) := ⟨rfl, fun _ => ⟨_, rfl⟩, fun _ _ => .rfl⟩
theorem State.rejudged_updEntry (n : SlotId) (f : QEntry → QEntry) : s.Rejudged (s.updEntry n f) := s.rejudged_queue _

theorem State.rejudged_freePending (n : SlotId) : s.Rejudged (s.freePending n) where
  rest := rfl
  slots _ := ⟨_, rfl⟩
  held c m := by
    rw [State.freePending, State.cell_updCells]
    split
    · rename_i h; simp [h]
    · rfl

theorem State.rejudged_withdrawClaim (n : SlotId) : s.Rejudged (s.withdrawClaim n) := by
  unfold State.withdrawClaim
  split
  · split
    · have h := (s.rejudged_freePending n).trans (State.rejudged_updEntry _ n fun e => { e with pendingClaim := false })
      dsimp only
      split
      · exact h.trans (State.rejudged_updLink _ _ _)
      · exact h
    · exact .refl s
  · exact .refl s

theorem State.rejudged_leaveQueue (n : SlotId) : s.Rejudged (s.leaveQueue n) := by
  have h := (s.rejudged_withdrawClaim n).trans (State.rejudged_queue _ ((s.withdrawClaim n).queue.filter fun e => decide (e.slot ≠ n)))
  refine h.trans (State.rejudged_updSlot _ n fun sl => ?_)
  split <;> exact ⟨_, rfl⟩

theorem State.rejudged_joinQueue (n : SlotId) : s.Rejudged (s.joinQueue n) :=
  ((s.rejudged_queue (s.queue ++ [QEntry.fresh n])).trans (State.rejudged_updSlot _ n
    (f := fun sl => { sl with state := sl.state.joined }) fun _ => ⟨_, rfl⟩)).trans
    (State.rejudged_causeScan _)

theorem State.rejudged_judge (n : SlotId) : s.Rejudged (s.judge n) := by
  unfold State.judge
  split
  · split
    · exact .refl s
    · exact s.rejudged_leaveQueue n
  · split
    · exact s.rejudged_joinQueue n
    · exact .refl s

theorem State.rejudged_judgeAll : s.Rejudged s.judgeAll := .foldl State.rejudged_judge _ s
theorem State.rejudged_settleState (n : SlotId) : s.Rejudged (s.settleState n) := s.rejudged_updSlot n fun _ => ⟨_, rfl⟩
theorem State.rejudged_withdrawClaims : s.Rejudged s.withdrawClaims := .foldl (fun s (e : QEntry) => s.rejudged_withdrawClaim e.slot) _ s

theorem State.rejudged_withdrawClaimFor (n : SlotId) (id : SegId) : s.Rejudged (s.withdrawClaimFor n id) := by
  unfold State.withdrawClaimFor
  split
  · split
    · exact s.rejudged_withdrawClaim n
    · exact .refl s
  · exact .refl s

end

section
variable {s t : State} (h : s.Rejudged t)
include h

theorem State.Rejudged.chain (n : SlotId) : (t.slot n).chain = (s.slot n).chain := by
  obtain ⟨_, e⟩ := h.slots n
  rw [e]
theorem State.Rejudged.stand (n : SlotId) : (t.slot n).stand = (s.slot n).stand := by
  obtain ⟨_, e⟩ := h.slots n
  rw [e]
theorem State.Rejudged.fault (n : SlotId) : (t.slot n).fault = (s.slot n).fault := by
  obtain ⟨_, e⟩ := h.slots n
  rw [e]
theorem State.Rejudged.pool : t.pool = s.pool := by rw [h.rest]
theorem State.Rejudged.batches : t.batches = s.batches := by rw [h.rest]
theorem State.Rejudged.free : t.free = s.free := by rw [h.rest]
theorem State.Rejudged.branches : t.branches = s.branches := by rw [h.rest]
theorem State.Rejudged.ports : t.ports = s.ports := by rw [h.rest]

end

/-! ### A segment closes (R49) -/

/-- From `s` to `t` segment `id`, whose record was `g`, has closed with outcome `o`. -/
structure State.Closes (s t : State) (id : SegId) (g : Segment) (o : SegOutcome) : Prop where
  pool : t.pool = s.pool.set id none
  free : t.free = s.free
  branches : t.branches = s.branches.upd (branchOf g.slot) fun br => br.forget id
  chain : ∀ n, (t.slot n).chain =
    if g.slot = n then (s.slot n).chain.filter fun i => decide (i ≠ id) else (s.slot n).chain
  batches : ∀ i, t.batches.get i = (s.batches.get i).map fun b => if g.batch = some b.id then b.count o else b

theorem State.closeSeg_of_none {s : State} {id : SegId} (h : s.seg id = none) (o : SegOutcome) : s.closeSeg id o = s := by
  simp [State.closeSeg, h]

theorem State.closes_closeSeg {s : State} {id : SegId} {g : Segment} (hg : s.seg id = some g) (o : SegOutcome) :
    s.Closes (s.closeSeg id o) id g o := by
  have hnotice : ∀ v : State, ∃ ps, v.closeNotice g o = { v with ports := ps } := by
    intro v
    cases o <;> exact ⟨_, rfl⟩
  obtain ⟨v, hv, hb⟩ : ∃ v : State, (∃ bs, v = { s with batches := bs } ∧
      ∀ i, bs.get i = (s.batches.get i).map fun b => if g.batch = some b.id then b.count o else b) ∧
      s.closeSeg id o = State.updSlot
        { ((v.closeNotice g o).withdrawClaimFor g.slot id).updBranch (branchOf g.slot) fun br => br.forget id with
          pool := ((v.closeNotice g o).withdrawClaimFor g.slot id).pool.set id none } g.slot fun sl =>
            { sl with chain := sl.chain.filter fun i => decide (i ≠ id) } := by
    cases hb : g.batch with
    | none => exact ⟨s, ⟨s.batches, rfl, fun i => by simp⟩, by simp only [State.closeSeg, hg, hb]; rfl⟩
    | some b =>
      refine ⟨s.updBatch b (Batch.count o), ⟨_, rfl, fun i => ?_⟩, by simp only [State.closeSeg, hg, hb]; rfl⟩
      simp only [Table.get_map, Option.some.injEq, eq_comm]
  obtain ⟨bs, rfl, hbs⟩ := hv
  obtain ⟨ps, hps⟩ := hnotice { s with batches := bs }
  rw [hps] at hb
  have hr := State.rejudged_withdrawClaimFor { s with batches := bs, ports := ps } g.slot id
  rw [hb]
  generalize State.withdrawClaimFor { s with batches := bs, ports := ps } g.slot id = u at hr ⊢
  refine ⟨congrArg (fun p : Table 1024 (Option Segment) => p.set id none) hr.pool, hr.free,
    congrArg (fun p : Table 4 Branch => p.upd (branchOf g.slot) fun br => br.forget id) hr.branches, fun n => ?_, fun i => ?_⟩
  · by_cases e : g.slot = n
    · subst e
      rw [State.slot_updSlot_self, if_pos rfl]
      exact congrArg (fun l : List SegId => l.filter fun i => decide (i ≠ id)) (hr.chain g.slot)
    · rw [State.slot_updSlot_ne _ _ e, if_neg e]
      exact hr.chain n
  · exact (congrArg (fun p : Table 4 (Option Batch) => p.get i) hr.batches).trans (hbs i)

end Sys2Proof.Machine
end


section
/-! SUPPORT. What an event does to the records of the segments, said once: a property that is `Filed` is kept by the buses and by
every operation that closes, withdraws or dispatches a segment, a `Booked` one by every operation of an event. -/

namespace Sys2Proof.Machine

/-! ### The orders a branch keeps -/

/-- A branch has a step order of segment `id` for drop `d`, or the segment in flight there (R90). -/
def Branch.Keeps (br : Branch) (d : DropId) (id : SegId) : Prop :=
  (∃ o ∈ br.orders, o.drop = d ∧ o.seg = id) ∨ (∃ o, br.busOrder = some o ∧ o.drop = d ∧ o.seg = id) ∨
    ∃ e ∈ br.poll, e.drop = d ∧ e.seg = id

theorem Branch.busOrder_eq_some {br : Branch} {o : Order} :
    br.busOrder = some o ↔ ∃ l, br.bus = some { call := .entry (.order o), left := l } := by
  unfold Branch.busOrder
  constructor
  · intro h
    split at h
    · rename_i hb
      cases h
      exact ⟨_, hb⟩
    · cases h
  · rintro ⟨l, hb⟩
    rw [hb]

theorem Branch.Keeps.mono {a b : Branch} {d : DropId} {id : SegId} (h : b.Keeps d id) (ho : ∀ o ∈ b.orders, o ∈ a.orders)
    (hb : ∀ o, b.busOrder = some o → a.busOrder = some o)
    (hp : ∀ e ∈ b.poll, ∃ x ∈ a.poll, x.drop = e.drop ∧ x.seg = e.seg) : a.Keeps d id := by
  rcases h with ⟨o, hm, hd, hs⟩ | ⟨o, hm, hd, hs⟩ | ⟨e, hm, hd, hs⟩
  · exact .inl ⟨o, ho o hm, hd, hs⟩
  · exact .inr (.inl ⟨o, hb o hm, hd, hs⟩)
  · obtain ⟨x, hx, h1, h2⟩ := hp e hm
    exact .inr (.inr ⟨x, hx, h1.trans hd, h2.trans hs⟩)

/-- Another queue and backlog of orders had before, and a poll list with the same flights; the bus carries no other order. -/
theorem Branch.Keeps.of_poll_map {a b : Branch} {d : DropId} {id : SegId} (h : b.Keeps d id) {f : PollEntry → PollEntry}
    (hf : ∀ e, (f e).drop = e.drop ∧ (f e).seg = e.seg) (hp : b.poll = a.poll.map f) (ho : ∀ o ∈ b.orders, o ∈ a.orders)
    (hb : ∀ o, b.busOrder = some o → a.busOrder = some o) : a.Keeps d id :=
  h.mono ho hb fun e he => by
    rw [hp] at he
    obtain ⟨x, hx, rfl⟩ := List.mem_map.1 he
    exact ⟨x, hx, (hf x).1.symm, (hf x).2.symm⟩

theorem Branch.Keeps.of_poll_sub {a b : Branch} {d : DropId} {id : SegId} (h : b.Keeps d id) (hp : ∀ e ∈ b.poll, e ∈ a.poll)
    (ho : ∀ o ∈ b.orders, o ∈ a.orders) (hb : ∀ o, b.busOrder = some o → a.busOrder = some o) : a.Keeps d id :=
  h.mono ho hb fun e he => ⟨e, hp e he, rfl, rfl⟩

/-- An order that goes back from the bus to wait (R97). -/
theorem Branch.keeps_of_requeue {br : Branch} {o o' : Order} (hk : br.Keeps o.drop o.seg) {d : DropId} {id : SegId}
    (h : ({ br with bus := none }.requeue o').Keeps d id) (hd : o'.drop = o.drop := by rfl) (hs : o'.seg = o.seg := by rfl) :
    br.Keeps d id := by
  have hmem : ∀ x ∈ ({ br with bus := none }.requeue o').orders, x = o' ∨ x ∈ br.orders := by
    intro x hx
    unfold Branch.requeue at hx
    rw [Branch.mem_orders] at hx ⊢
    split at hx
    · rw [List.mem_cons, Entry.order.injEq] at hx
      tauto
    · rw [List.mem_cons] at hx
      tauto
  have hrest : ({ br with bus := none }.requeue o').bus = none ∧ ({ br with bus := none }.requeue o').poll = br.poll := by
    unfold Branch.requeue
    split <;> exact ⟨rfl, rfl⟩
  obtain ⟨x, hx, h1, h2⟩ | ⟨x, hx, -⟩ | hx := h
  · obtain rfl | hx := hmem x hx
    · rw [← h1, ← h2, hd, hs]
      exact hk
    · exact .inl ⟨x, hx, h1, h2⟩
  · obtain ⟨l, hl⟩ := Branch.busOrder_eq_some.1 hx
    rw [hrest.1] at hl
    cases hl
  · rw [hrest.2] at hx
    exact .inr (.inr hx)

/-! ### Changes that touch no record of a segment -/

/-- From `s` to `t` no chain, no segment, no batch and no free record changed, and no branch has an order it had not. -/
structure State.SameBooks (s t : State) : Prop where
  chain : ∀ n, (t.slot n).chain = (s.slot n).chain
  pool : t.pool = s.pool
  batches : t.batches = s.batches
  free : t.free = s.free
  keeps : ∀ b d id, (t.branch b).Keeps d id → (s.branch b).Keeps d id

theorem State.SameBooks.refl (s : State) : s.SameBooks s := ⟨fun _ => rfl, rfl, rfl, rfl, fun _ _ _ h => h⟩
theorem State.SameBooks.trans {s t u : State} (h : s.SameBooks t) (k : t.SameBooks u) : s.SameBooks u :=
  ⟨fun n => (k.chain n).trans (h.chain n), k.pool.trans h.pool, k.batches.trans h.batches, k.free.trans h.free,
    fun b d id e => h.keeps b d id (k.keeps b d id e)⟩
theorem State.SameBooks.foldl {α : Type} {f : State → α → State} (hf : ∀ (s : State) a, s.SameBooks (f s a)) (l : List α) (s : State) :
    s.SameBooks (l.foldl f s) := by
  induction l generalizing s with
  | nil => exact .refl s
  | cons a l ih => exact (hf s a).trans (ih _)

theorem State.SameBooks.of_eq {s t : State} (hs : t.slots = s.slots) (hp : t.pool = s.pool) (hb : t.batches = s.batches)
    (hf : t.free = s.free) (hr : t.branches = s.branches) : s.SameBooks t :=
  ⟨fun n => by simp only [State.slot, hs], hp, hb, hf, fun b d id h => by simpa only [State.branch, hr] using h⟩

theorem State.Rejudged.sameBooks {s t : State} (h : s.Rejudged t) : s.SameBooks t :=
  ⟨h.chain, h.pool, h.batches, h.free, fun b d id e => by simpa only [State.branch, h.branches] using e⟩

section
variable (s : State)

theorem State.sameBooks_updSlot (n : SlotId) {f : Slot → Slot} (hf : ∀ sl, (f sl).chain = sl.chain) : s.SameBooks (s.updSlot n f) := by
  refine ⟨fun m => ?_, rfl, rfl, rfl, fun _ _ _ h => h⟩
  by_cases e : n = m
  · subst e; rw [State.slot_updSlot_self, hf]
  · rw [State.slot_updSlot_ne _ _ e]

theorem State.sameBooks_updBranch (b : BranchId) {f : Branch → Branch}
    (hf : ∀ d id, (f (s.branch b)).Keeps d id → (s.branch b).Keeps d id) : s.SameBooks (s.updBranch b f) := by
  refine ⟨fun _ => rfl, rfl, rfl, rfl, fun c d id h => ?_⟩
  by_cases e : b = c
  · subst e; rw [State.branch_updBranch_self] at h; exact hf d id h
  · rw [State.branch_updBranch_ne _ _ e] at h; exact h

theorem State.sameBooks_updBranch_twice (b : BranchId) {f g : Branch → Branch}
    (hf : ∀ d id, (g (f (s.branch b))).Keeps d id → (s.branch b).Keeps d id) : s.SameBooks ((s.updBranch b f).updBranch b g) := by
  refine ⟨fun _ => rfl, rfl, rfl, rfl, fun c d id h => ?_⟩
  by_cases e : b = c
  · subst e; rw [State.branch_updBranch_self, State.branch_updBranch_self] at h; exact hf d id h
  · rw [State.branch_updBranch_ne _ _ e, State.branch_updBranch_ne _ _ e] at h; exact h

theorem State.sameBooks_moveStand (n : SlotId) (st : Stand) : s.SameBooks (s.moveStand n st) := by
  have h : ∀ {u : State}, s.SameBooks u → s.SameBooks (u.updSlot n fun sl => { sl with stand := st }) :=
    fun hu => hu.trans (State.sameBooks_updSlot _ n fun _ => rfl)
  unfold State.moveStand
  dsimp only
  split
  · exact h (.of_eq rfl rfl rfl rfl rfl)
  · split
    · exact h (.of_eq rfl rfl rfl rfl rfl)
    · exact h (.refl s)

theorem State.sameBooks_settleCells (n : SlotId) : s.SameBooks (s.settleCells n) := .of_eq rfl rfl rfl rfl rfl
theorem State.sameBooks_rehold (n : SlotId) : s.SameBooks (s.rehold n) := .of_eq rfl rfl rfl rfl rfl
theorem State.sameBooks_haltOut (x : List BranchId) : s.SameBooks { s with haltOut := x } := .of_eq rfl rfl rfl rfl rfl
theorem State.sameBooks_raise (nt : Notice) : s.SameBooks (s.raise nt) := .of_eq rfl rfl rfl rfl rfl

/-! ### The buses -/

theorem State.sameBooks_fillPlace (b : BranchId) : s.SameBooks (s.fillPlace b) := by
  unfold State.fillPlace
  dsimp only
  split
  · exact .refl s
  · split
    · refine s.sameBooks_updBranch b fun d id h => h.of_poll_map (fun e => ?_) rfl (fun o => by simp [Branch.mem_orders])
        fun o h => h
      split <;> exact ⟨rfl, rfl⟩
    · split
      · rename_i ht
        have hm := (takeFirst_mem ht).2
        refine s.sameBooks_updBranch b fun d id h => h.of_poll_sub (fun _ h => h) (fun o ho => ?_) fun o h => h
        simp only [Branch.mem_orders, List.mem_append, List.mem_singleton, Entry.order.injEq, hm o] at ho ⊢
        tauto
      · split
        · exact s.sameBooks_updBranch b fun d id h => h.of_poll_sub (fun _ h => h) (fun o => by simp [Branch.mem_orders]) fun o h => h
        · split
          · exact s.sameBooks_updBranch b fun d id h => h.of_poll_sub (fun _ h => h) (fun o => by simp [Branch.mem_orders]) fun o h => h
          · split
            · exact s.sameBooks_updBranch b fun d id h => h.of_poll_sub (fun _ h => h) (fun o => by simp [Branch.mem_orders]) fun o h => h
            · exact .refl s

theorem State.sameBooks_fillPlaces (b : BranchId) : s.SameBooks (s.fillPlaces b) := .foldl (fun s _ => s.sameBooks_fillPlace b) _ s

theorem State.sameBooks_haltReported (b : BranchId) : s.SameBooks (s.haltReported b) := by
  unfold State.haltReported
  split
  · dsimp only
    split <;> exact .of_eq rfl rfl rfl rfl rfl
  · exact .refl s

theorem State.sameBooks_finishHalt (b : BranchId) : s.SameBooks (s.finishHalt b) := by
  unfold State.finishHalt
  dsimp only
  split
  · exact (s.sameBooks_updBranch b (f := fun br => { br with halting := false }) fun d id h => h).trans
      (State.sameBooks_haltReported _ b)
  · exact .refl s

theorem State.sameBooks_sendHalt (b : BranchId) : s.SameBooks (s.sendHalt b) :=
  (s.sameBooks_updBranch b fun d id h => h.of_poll_map (f := fun e => { e with haltMark := true }) (fun e => ⟨rfl, rfl⟩) rfl
    (fun o h => h) fun o h => by cases h).trans (State.sameBooks_finishHalt _ b)

/-- A call that is no step order. -/
theorem State.sameBooks_sendEntry (b : BranchId) (e : Entry) (he : ∀ o, e ≠ .order o) : s.SameBooks (s.sendEntry b e) := by
  unfold State.sendEntry
  split
  · exact absurd rfl (he _)
  · exact s.sameBooks_updBranch b fun d id h => h.of_poll_sub (fun _ h => h) (fun o h => h) fun o h => by cases h
  · refine s.sameBooks_updBranch b fun d id h => h.of_poll_map (fun e => ?_) rfl (fun o h => h) fun o h => by cases h
    split <;> exact ⟨rfl, rfl⟩
  · exact s.sameBooks_updBranch b fun d id h => h.of_poll_sub (fun _ h => h) (fun o h => h) fun o h => by cases h
  · exact s.sameBooks_updBranch b fun d id h => h.of_poll_sub (fun _ h => h) (fun o h => h) fun o h => by cases h

theorem State.answerService_eq (r : Result) (f : AnswerFields) : ∃ ps, s.answerService r f = { s with ports := ps } := by
  unfold State.answerService
  split <;> exact ⟨_, rfl⟩

theorem State.sameBooks_answerService (r : Result) (f : AnswerFields) : s.SameBooks (s.answerService r f) := by
  obtain ⟨_, e⟩ := s.answerService_eq r f
  rw [e]
  exact .of_eq rfl rfl rfl rfl rfl

theorem State.sameBooks_takeOver (b : BranchId) : s.SameBooks (s.takeOver b) := by
  unfold State.takeOver
  split
  · exact (s.sameBooks_updBranch b (f := fun br => { br with access := .taken }) fun d id h => h).trans
      (State.sameBooks_answerService _ _ _)
  · exact .refl s

theorem State.sameBooks_beginCensus (c : Census) : s.SameBooks (s.beginCensus c) :=
  ⟨fun _ => rfl, rfl, rfl, rfl, fun b d id h => by
    simp only [State.branch, State.beginCensus, Table.get_map] at h
    exact h⟩

theorem State.sameBooks_endStartUp : s.SameBooks s.endStartUp := by
  unfold State.endStartUp
  dsimp only
  split <;> exact .of_eq rfl rfl rfl rfl rfl

theorem State.sameBooks_removeOrder (n : SlotId) (id : SegId) : s.SameBooks (s.removeOrder n id) :=
  s.sameBooks_updBranch _ fun _ _ h => h.of_poll_sub (fun _ h => h) (fun _ ho => Branch.mem_orders_of_sub ho
    (fun _ he => (List.mem_filter.1 he).1) (fun _ he => (List.mem_filter.1 he).1)) fun _ h => h

theorem State.sameBooks_endFlight (b : BranchId) (d : DropId) (x y : Bool) : s.SameBooks (s.endFlight b d x y) :=
  s.sameBooks_updBranch b fun _ _ h => h.of_poll_sub (fun _ he => (List.mem_filter.1 he).1) (fun _ ho => Branch.mem_orders_of_sub ho
    (fun _ he => (List.mem_filter.1 he).1) (fun _ he => he)) fun _ h => h

theorem State.sameBooks_freeBus (b : BranchId) : s.SameBooks (s.freeBus b) :=
  s.sameBooks_updBranch b fun _ _ h => h.of_poll_sub (fun _ h => h) (fun _ h => h) fun o h => by cases h

end

/-! ### Properties of the segments' records -/

/-- `P` is kept by the buses: they send step orders that the branches keep, and touch the segments' records in no other way. -/
structure Driven (P : State → Prop) : Prop where
  same : ∀ {s t : State}, s.SameBooks t → P s → P t
  send : ∀ {s t : State} {b d id}, (s.branch b).Keeps d id → P s → P t →
    P (t.updSeg id fun g => { g with state := .active, continuation := false })
  mark : ∀ {s : State} id, P s → P (s.updSeg id fun g => { g with continuation := true })

/-- `P` is kept by the buses and by every operation that closes, withdraws or dispatches a segment. `J n id` says that segment `id`
has its place with slot `n`, and `K n x` that `x` is the record, and number, of such a segment, all through the event. -/
structure Filed (J : SlotId → SegId → Prop) (K : SlotId → SegId × Segment → Prop) (P : State → Prop) : Prop where
  same : ∀ {s t : State}, s.SameBooks t → P s → P t
  known : ∀ {s : State} {n x}, x ∈ s.chainSegs n → P s → K n x
  place : ∀ {n x}, K n x → J n x.1
  record : ∀ {s : State} {n id g}, J n id → s.seg id = some g → P s → K n (id, g)
  keeps : ∀ {s : State} {b d id}, (s.branch b).Keeps d id → P s → J (slotOf b d) id
  close : ∀ {s : State} {n id} o, J n id → P s → P (s.closeSeg id o)
  chained : ∀ {s : State} {n x}, K n x → s.abortingBatch x.2 = false → P s →
    P (s.updSeg x.1 fun g => { g with state := .chained, continuation := false })
  active : ∀ {s : State} {n id}, J n id → P s → P (s.updSeg id fun g => { g with state := .active, continuation := false })
  mark : ∀ {s : State} id, P s → P (s.updSeg id fun g => { g with continuation := true })
  order : ∀ {s : State} {n id} {f : Branch → Branch}, J n id → s.seg id ≠ none →
    (∀ d i, (f (s.branch (branchOf n))).Keeps d i → (s.branch (branchOf n)).Keeps d i ∨ (d = dropOf n ∧ i = id)) → P s →
    P (s.updBranch (branchOf n) f)

/-- `P` is kept by every operation of an event, grants and the ends of batches among them. -/
structure Booked (J : SlotId → SegId → Prop) (K : SlotId → SegId × Segment → Prop) (P : State → Prop) : Prop extends Filed J K P where
  granted : ∀ {s : State} {n id}, J n id → P s → P (s.updSeg id fun g => { g with state := .granted, continuation := false })
  endBatches : ∀ {s : State}, P s → P s.endBatches

theorem foldl_keeps_mem {α : Type} {P : State → Prop} {f : State → α → State} {l : List α} {s : State}
    (hf : ∀ s, ∀ a ∈ l, P s → P (f s a)) (h : P s) : P (l.foldl f s) := by
  induction l generalizing s with
  | nil => exact h
  | cons a l ih => exact ih (fun s x hx => hf s x (List.mem_cons_of_mem _ hx)) (hf s a List.mem_cons_self h)

section Driven
variable {P : State → Prop} (hP : Driven P) {s : State} (h : P s)
include hP h

/-! ### The buses -/

/-- A step order taken from the queue, which leaves `rest`, is sent (R92, R95). -/
theorem Driven.sendOrder {b : BranchId} {o : Order} {rest : List Entry}
    (hm : ∀ e, e ∈ (s.branch b).queue ↔ e = .order o ∨ e ∈ rest) :
    P ((s.updBranch b fun br => { br with queue := rest, callAt := s.now }).sendOrder b o) := by
  have hkeep : (s.branch b).Keeps o.drop o.seg := .inl ⟨o, (Branch.mem_orders _ _).2 (.inl ((hm _).2 (.inl rfl))), rfl, rfl⟩
  have hbus : ∀ (k : Option Bool), P ((s.updBranch b fun br => { br with queue := rest, callAt := s.now }).updBranch b
      fun br => { br with bus := some { call := .entry (.order { o with keep := k }), left := o.left } }) := fun k => by
    refine hP.same (s.sameBooks_updBranch_twice b ?_) h
    rintro d id (⟨x, hx, hd, hs⟩ | ⟨x, hx, hd, hs⟩ | hk)
    · rw [Branch.mem_orders] at hx
      exact .inl ⟨x, (Branch.mem_orders _ _).2 (hx.imp_left fun hq => (hm _).2 (.inr hq)), hd, hs⟩
    · obtain ⟨l, hl⟩ := Branch.busOrder_eq_some.1 hx
      cases hl
      subst hd hs
      exact hkeep
    · exact .inr (.inr hk)
  unfold State.sendOrder
  split
  · rename_i k hk
    have e : o = { o with keep := some k } := by rw [← hk]
    rw [e]
    exact hbus (some k)
  · have hactive := fun k => hP.send hkeep h (hbus k)
    dsimp only
    split
    · exact hP.mark _ (hactive _)
    · exact hactive _

theorem Driven.startBus (b : BranchId) : P (s.startBus b) := by
  unfold State.startBus
  dsimp only
  split
  · exact h
  · split
    · exact hP.same (s.sameBooks_sendHalt b) h
    · split
      · rename_i e rest ht
        have hm := (takeFirst_mem ht).2
        by_cases he : ∀ o, e ≠ .order o
        · refine hP.same (State.sameBooks_sendEntry _ b e he) (hP.same (s.sameBooks_updBranch b fun d id hk => ?_) h)
          refine hk.of_poll_sub (fun _ h => h) (fun o ho => ?_) fun _ h => h
          rw [Branch.mem_orders] at ho ⊢
          exact ho.imp_left fun hq => (hm _).2 (.inr hq)
        · obtain ⟨o, ho⟩ := not_forall.1 he
          have ho : e = .order o := not_not.1 ho
          subst ho
          exact hP.sendOrder h hm
      · exact h

theorem Driven.arbitrate (b : BranchId) : P (s.arbitrate b) :=
  hP.same (State.sameBooks_takeOver _ b) (hP.same (State.sameBooks_fillPlaces _ b)
    (hP.startBus (hP.same (s.sameBooks_fillPlaces b) h) b))

theorem Driven.arbitrateAll : P s.arbitrateAll := foldl_keeps (P := P) (fun _ b h => hP.arbitrate h b) h

theorem Driven.advance : P s.advance := by
  unfold State.advance
  split
  · exact hP.arbitrateAll (hP.same ((State.SameBooks.of_eq (s := s) (t := { s with phase := .census }) rfl rfl rfl rfl rfl).trans
      (State.sameBooks_beginCensus _ _)) h)
  · split
    · have hl := State.SameBooks.foldl (f := State.sendSync) (fun _ _ => .of_eq rfl rfl rfl rfl rfl) allLinks
        { s with census := .none, phase := .sync }
      have hs : s.SameBooks { s with census := .none, phase := .sync } := .of_eq rfl rfl rfl rfl rfl
      exact hP.same ((hs.trans hl).trans (State.sameBooks_endStartUp _)) h
    · split
      · exact hP.same ((State.SameBooks.of_eq (s := s) (t := { s with census := .none }) rfl rfl rfl rfl rfl).trans
          (State.sameBooks_answerService _ _ _)) h
      · exact h

theorem Driven.runBuses : P s.runBuses := hP.advance (hP.arbitrateAll h)

end Driven

theorem Filed.driven {J : SlotId → SegId → Prop} {K : SlotId → SegId × Segment → Prop} {P : State → Prop} (hP : Filed J K P) :
    Driven P where
  same := hP.same
  send hk hs ht := hP.active (hP.keeps hk hs) ht
  mark := hP.mark

/-- What an abort closes and withdraws in the chain of one slot (R61). -/
def State.abortWithdraw (s : State) (id : Nat) (n : SlotId) : State :=
  (s.skipWhere n fun g => if g.batch = some id ∧ g.state = .chained then some .aborted else none).withdrawWhere n
    fun g => decide (g.batch = some id) && !g.continuation

section Filed
variable {J : SlotId → SegId → Prop} {K : SlotId → SegId × Segment → Prop} {P : State → Prop} (hP : Filed J K P) {s : State} (h : P s)
include hP h

/-- Chains, segments, batches, free records and branches as they were. -/
theorem Filed.elsewhere {t : State} (hs : t.slots = s.slots) (hp : t.pool = s.pool) (hb : t.batches = s.batches)
    (hf : t.free = s.free) (hr : t.branches = s.branches) : P t := hP.same (.of_eq hs hp hb hf hr) h

/-! ### Segments that close, are withdrawn, are dispatched -/

theorem Filed.mem_granted {n : SlotId} {x : SegId × Segment} (hx : x ∈ s.grantedSegs n) : K n x :=
  hP.known (List.mem_filter.1 hx).1 h

theorem Filed.judge (n : SlotId) : P (s.judge n) := hP.same (s.rejudged_judge n).sameBooks h
theorem Filed.judgeAll : P s.judgeAll := hP.same s.rejudged_judgeAll.sameBooks h
theorem Filed.settleState (n : SlotId) : P (s.settleState n) := hP.same (s.rejudged_settleState n).sameBooks h
theorem Filed.settleCells (n : SlotId) : P (s.settleCells n) := hP.same (s.sameBooks_settleCells n) h

theorem Filed.skipWhere (n : SlotId) (p : Segment → Option SkipReason) : P (s.skipWhere n p) := by
  refine foldl_keeps_mem (P := P) (fun t x hx ht => ?_) h
  split
  · exact hP.close _ (hP.place (hP.known hx h)) ht
  · exact ht

theorem Filed.withdrawSeg {n : SlotId} {x : SegId × Segment} (hx : K n x) : P (s.withdrawSeg n x.1 x.2) := by
  have h' := hP.same (s.sameBooks_removeOrder n x.1) h
  unfold State.withdrawSeg
  dsimp only
  split
  · exact hP.close _ (hP.place hx) h'
  · rename_i hb
    exact hP.chained hx (Bool.eq_false_iff.2 hb) h'

theorem Filed.withdrawWhere (n : SlotId) (p : Segment → Bool) : P (s.withdrawWhere n p) := by
  unfold State.withdrawWhere
  dsimp only
  split
  · exact h
  · have h' := foldl_keeps_mem (P := P) (f := fun s (x : SegId × Segment) => s.withdrawSeg n x.1 x.2)
      (l := (s.grantedSegs n).filter fun x => decide (x.2.state = .granted) && p x.2)
      (fun t x hx ht => hP.withdrawSeg ht (hP.mem_granted h (List.mem_filter.1 hx).1)) h
    have h'' := hP.same (State.sameBooks_rehold _ n) h'
    split
    · exact hP.settleState h'' n
    · exact h''

theorem Filed.withdrawGranted (n : SlotId) : P (s.withdrawGranted n) :=
  foldl_keeps_mem (P := P) (fun _ _ hx ht => hP.withdrawSeg ht (hP.mem_granted h hx)) h

theorem Filed.withdrawClaims : P s.withdrawClaims := hP.same s.rejudged_withdrawClaims.sameBooks h

theorem Filed.holdWithdrawals : P s.holdWithdrawals :=
  hP.judgeAll (hP.withdrawClaims (foldl_keeps (P := P) (fun _ n h => hP.withdrawWhere h n _) h))

/-- A step order handed to its slot's branch is the one order that is new there (R93, R94). -/
theorem Filed.handOver {n : SlotId} {id : SegId} (hj : J n id) (hs : s.seg id ≠ none) (g : Segment) : P (s.handOver n id g) := by
  refine hP.order hj hs (fun d i hk => ?_) h
  rcases hk with ⟨o, ho, hd, hi⟩ | hk | hk
  · rw [Branch.mem_orders] at ho
    have hnew : o.drop = dropOf n ∧ o.seg = id ∨ o ∈ (s.branch (branchOf n)).orders := by
      rw [Branch.mem_orders]
      split at ho
      · simp only [List.mem_append, List.mem_singleton, Entry.order.injEq] at ho
        obtain (ho | rfl) | ho := ho
        · exact .inr (.inl ho)
        · exact .inl ⟨rfl, rfl⟩
        · exact .inr (.inr ho)
      · simp only [List.mem_append, List.mem_singleton] at ho
        obtain ho | ho | rfl := ho
        · exact .inr (.inl ho)
        · exact .inr (.inr ho)
        · exact .inl ⟨rfl, rfl⟩
    obtain ⟨h1, h2⟩ | hold := hnew
    · exact .inr ⟨hd.symm.trans h1, hi.symm.trans h2⟩
    · exact .inl (.inl ⟨o, hold, hd, hi⟩)
  · obtain ⟨o, ho, hd, hi⟩ := hk
    refine .inl (.inr (.inl ⟨o, ?_, hd, hi⟩))
    split at ho <;> exact ho
  · obtain ⟨e, he, hd, hi⟩ := hk
    refine .inl (.inr (.inr ⟨e, ?_, hd, hi⟩))
    split at he <;> exact he

theorem Filed.dispatch {n : SlotId} {id : SegId} (hj : J n id) : P (s.dispatch n id) := by
  unfold State.dispatch
  split
  · exact h
  · rename_i g hg
    have h' := hP.same (s.sameBooks_updSlot n (f := fun sl => { sl with state := g.body.workState }) fun _ => rfl) h
    dsimp only
    split
    · exact hP.active hj (hP.elsewhere h' rfl rfl rfl rfl rfl)
    · refine hP.handOver h' hj ?_ g
      simp only [State.seg, State.updSlot_pool] at hg ⊢
      rw [hg]
      nofun

omit h in
/-- The look-ahead left the only granted segment is dispatched behind the withdrawals of an abort (R61, R85). -/
theorem Filed.abortSlot_of (id : Nat) (n : SlotId) (h' : P (s.abortWithdraw id n)) : P (s.abortSlot id n) := by
  show P (match (s.abortWithdraw id n).grantedSegs n with
    | x :: _ => if (s.grantedSegs n).head?.map (·.1) = some x.1 then s.abortWithdraw id n else (s.abortWithdraw id n).dispatch n x.1
    | [] => s.abortWithdraw id n)
  split
  · rename_i x _ hx
    split
    · exact h'
    · exact hP.dispatch h' (hP.place (hP.mem_granted h' (x := x) (by rw [hx]; exact List.mem_cons_self)))
  · exact h'

theorem Filed.abortSlot (id : Nat) (n : SlotId) : P (s.abortSlot id n) :=
  hP.abortSlot_of id n (hP.withdrawWhere (hP.skipWhere h n _) n _)

end Filed

section Booked
variable {J : SlotId → SegId → Prop} {K : SlotId → SegId × Segment → Prop} {P : State → Prop} (hP : Booked J K P) {s : State} (h : P s)
include hP h

/-! ### Ends of segments -/

theorem Booked.faultSlot (n : SlotId) (c : FaultCode) : P (s.faultSlot n c) := by
  unfold State.faultSlot
  split
  · exact h
  · have h' := hP.same (State.sameBooks_updSlot _ n (f := fun sl => { sl with state := .faulted, fault := some c }) fun _ => rfl)
      (hP.same (s.rejudged_leaveQueue n).sameBooks h)
    exact hP.skipWhere (hP.same (State.sameBooks_raise _ _) h') n _

theorem Booked.nextSeg (n : SlotId) : P (s.nextSeg n) := by
  unfold State.nextSeg
  split
  · rename_i x _ hx
    exact hP.dispatch h (hP.place (hP.mem_granted h (x := x) (by rw [hx]; exact List.mem_cons_self)))
  · exact hP.settleState h n

theorem Booked.doneSeg {n m : SlotId} {id : SegId} (hj : J m id) (g : Segment) : P (s.doneSeg n id g) := by
  unfold State.doneSeg
  split
  · exact hP.nextSeg (hP.settleCells (hP.close _ hj (hP.same (s.sameBooks_moveStand n _) h)) n) n
  · exact hP.settleCells (hP.faultSlot (hP.withdrawGranted (hP.close _ hj (hP.same (s.sameBooks_moveStand n _) h)) n) n _) n

theorem Booked.skipRule (n : SlotId) (b : Option Nat) : P (s.skipRule n b) := by
  unfold State.skipRule
  split
  · exact hP.skipWhere h n _
  · exact h

theorem Booked.failSeg {n m : SlotId} {id : SegId} (hj : J m id) (g : Segment) (r : FailReason) (x y : Int) :
    P (s.failSeg n id g r x y) := by
  unfold State.failSeg
  dsimp only
  have h' := hP.withdrawGranted (hP.skipRule (hP.close (.failed r) hj (hP.same (s.sameBooks_moveStand n
    ((s.slot n).stand.afterFailure r x y g.body.sweep)) h)) n g.batch) n
  split
  · exact hP.settleCells (hP.faultSlot h' n _) n
  · exact hP.settleState (hP.settleCells h' n) n

theorem Booked.applyOutcome {b : BranchId} {d : DropId} {id : SegId} (hj : J (slotOf b d) id) (x y : Bool) (o : SegOutcome)
    (i j : Int) : P (s.applyOutcome b d id x y o i j) := by
  unfold State.applyOutcome
  dsimp only
  have h' := hP.same (s.sameBooks_endFlight b d x (decide (o = .done) && y)) h
  split
  · exact hP.doneSeg h' hj _
  · exact hP.failSeg h' hj _ _ _ _
  · exact h'

theorem Booked.endOutcome (b : BranchId) (n : SlotId) (o : SegOutcome) : P (s.endOutcome b n o) := by
  have hj := hP.judge h n
  unfold State.endOutcome
  dsimp only
  split
  · have hw := hP.holdWithdrawals (hP.elsewhere (t := { s.judge n with sector := .hold }) hj rfl rfl rfl rfl rfl)
    exact hP.same (State.sameBooks_finishHalt _ b) (hP.same (State.sameBooks_raise _ _) (hP.endBatches hw))
  · exact hP.same (State.sameBooks_finishHalt _ b) (hP.endBatches hj)

theorem Booked.complete {b : BranchId} {d : DropId} {id : SegId} (hj : J (slotOf b d) id) (x y : Bool) (o : SegOutcome)
    (i j : Int) : P (s.complete b d id x y o i j) := hP.endOutcome (hP.applyOutcome h hj x y o i j) _ _ _

theorem Booked.of_activeDwell {n : SlotId} {x : SegId × Segment} (hx : s.activeDwell n = some x) : J n x.1 :=
  hP.place (hP.mem_granted h (List.mem_of_find?_eq_some hx))

theorem Booked.endDwell (n : SlotId) : P (s.endDwell n) := by
  unfold State.endDwell
  split
  · rename_i e
    exact hP.doneSeg (hP.elsewhere (t := { s with dwell := s.dwell.set n none }) h rfl rfl rfl rfl rfl) (hP.of_activeDwell h e) _
  · exact h

theorem Booked.cutDwell (n : SlotId) : P (s.cutDwell n) := by
  unfold State.cutDwell
  split
  · rename_i e
    exact hP.close _ (hP.of_activeDwell h e) (hP.elsewhere (t := { s with dwell := s.dwell.set n none }) h rfl rfl rfl rfl rfl)
  · exact h

theorem Booked.silent (n : SlotId) : P (s.silent n) := by
  unfold State.silent
  split
  · exact h
  · exact h
  · exact h
  · have h' := hP.same (State.sameBooks_rehold _ n) (hP.withdrawGranted (hP.cutDwell h n) n)
    exact hP.endBatches (hP.faultSlot h' n _)

/-! ### Halts and the sector -/

theorem Booked.haltOrder {b : BranchId} {o : Order} (hj : J (slotOf b o.drop) o.seg) : P (s.haltOrder b o) := by
  unfold State.haltOrder
  split
  · exact hP.applyOutcome (hP.same (s.sameBooks_removeOrder _ _) h) hj _ _ _ _ _
  · exact hP.withdrawWhere h _ _

theorem Booked.requestHalt (b : BranchId) : P (s.requestHalt b) := by
  unfold State.requestHalt
  refine hP.same (State.sameBooks_updBranch _ b fun d id hk => ?_) (foldl_keeps_mem (P := P) (fun t o ho ht =>
    hP.haltOrder ht (hP.keeps (.inl ⟨o, ho, rfl, rfl⟩) h)) h)
  exact hk.of_poll_sub (fun _ h => h) (fun _ ho => Branch.mem_orders_of_sub ho (fun _ he => (List.mem_filter.1 he).1)
    fun _ he => by cases he) fun _ h => h

theorem Booked.enterStopping : P s.enterStopping := by
  unfold State.enterStopping
  dsimp only
  have h1 := hP.withdrawClaims (foldl_keeps (P := P) (f := fun s n => s.withdrawWhere n fun _ => true) (l := allSlots)
    (fun _ n h => hP.withdrawWhere h n _) (hP.elsewhere (t := s.enterSector .stopping) h rfl rfl rfl rfl rfl))
  have h2 := foldl_keeps (P := P) (f := State.endDwell) (l := allSlots) (fun _ n h => hP.endDwell h n) h1
  have h3 := hP.same (State.sameBooks_haltOut _ allBranches) h2
  exact hP.endBatches (hP.judgeAll (foldl_keeps (P := P) (fun _ b h => hP.requestHalt h b) h3))

theorem Booked.enterHold : P s.enterHold :=
  hP.endBatches (hP.holdWithdrawals (hP.elsewhere (t := s.enterSector .hold) h rfl rfl rfl rfl rfl))

theorem Booked.takeStop : P s.takeStop := by
  unfold State.takeStop
  split
  · exact hP.enterStopping h
  · exact hP.enterStopping h
  · exact hP.elsewhere h rfl rfl rfl rfl rfl
  · exact h

/-! ### Grants and scans -/

theorem Booked.award {n : SlotId} {id : SegId} (hj : J n id) (g : Segment) : P (s.award n id g) := by
  have h1 := hP.granted hj (hP.elsewhere (t := s.takeCells n (s.sweepOf n g)) h rfl rfl rfl rfl rfl)
  have h2 := hP.same (State.rejudged_queue _ (s.queue.filter fun e => decide (e.slot ≠ n))).sameBooks h1
  unfold State.award
  dsimp only
  split
  · exact hP.dispatch h2 hj
  · exact h2

theorem Booked.of_firstUngranted {n : SlotId} {x : SegId × Segment} (hx : s.firstUngranted n = some x) : J n x.1 :=
  hP.place (hP.known (List.mem_of_find?_eq_some hx) h)

theorem Booked.judgeEntry (n : SlotId) : P (s.judgeEntry n).1 := by
  unfold State.judgeEntry
  split
  · rename_i hu
    have hj := hP.of_firstUngranted h hu
    dsimp only
    repeat' split
    all_goals first
      | exact h
      | exact hP.award h hj _
      | exact hP.elsewhere h rfl rfl rfl rfl rfl
  · exact h

theorem Booked.scanEntries (l : List SlotId) : P (s.scanEntries l).1 := by
  induction l generalizing s with
  | nil => exact h
  | cons n l ih => exact ih (hP.judgeEntry h n)

theorem Booked.makeScan : P s.makeScan :=
  foldl_keeps (P := P) (fun _ n h => hP.judge h n)
    (foldl_keeps (P := P) (fun s n h => hP.same (s.rejudged_updEntry n _).sameBooks h)
      (hP.scanEntries (hP.elsewhere (t := { s with scanDue := false }) h rfl rfl rfl rfl rfl) _))

/-! ### The branch lines -/

theorem Booked.notFound (n : SlotId) : P (s.notFound n) := by
  unfold State.notFound
  split
  · exact hP.silent h n
  · exact h

theorem Booked.readStatus (b : BranchId) (d : DropId) (x : Bool) (r : StatusReply) : P (s.readStatus b d x r) := by
  unfold State.readStatus
  split
  · exact h
  · rename_i e he
    have hd : e.drop = d := by simpa using List.find?_some he
    have hj : J (slotOf b d) e.seg := hP.keeps (.inr (.inr ⟨e, List.mem_of_find?_eq_some he, hd, rfl⟩)) h
    split
    · exact h
    · split
      · exact hP.complete h hj _ _ _ _ _
      · split
        · exact hP.complete h hj _ _ _ _ _
        · exact h

theorem Booked.takeStatus (b : BranchId) (d : DropId) (w : Purpose) (r : StatusReply) : P (s.takeStatus b d w r) := by
  unfold State.takeStatus
  have h' : P ((s.freeBus b).takeSenses (slotOf b d) r.senses) := by
    refine hP.same ((s.sameBooks_freeBus b).trans ?_) h
    unfold State.takeSenses
    dsimp only
    split <;> exact .of_eq rfl rfl rfl rfl rfl
  dsimp only
  split
  · exact h'
  · exact hP.readStatus h' _ _ _ _
  · exact hP.readStatus h' _ _ _ _

theorem Booked.takeNak {b : BranchId} {o : Order} {l : Nat} (hb : (s.branch b).bus = some { call := .entry (.order o), left := l })
    (i : Nat) : P (s.takeNak b o i) := by
  have hk : (s.branch b).Keeps o.drop o.seg := .inr (.inl ⟨o, Branch.busOrder_eq_some.2 ⟨l, hb⟩, rfl, rfl⟩)
  have hj := hP.keeps hk h
  have h' := hP.same (s.sameBooks_freeBus b) h
  unfold State.takeNak
  dsimp only
  split
  · exact hP.complete h' hj _ _ _ _ _
  · split
    · exact hP.complete h' hj _ _ _ _ _
    · exact hP.same (s.sameBooks_updBranch_twice b fun d id hc => Branch.keeps_of_requeue hk hc) h

theorem Booked.takeAck {b : BranchId} {o : Order} {l : Nat} (hb : (s.branch b).bus = some { call := .entry (.order o), left := l }) :
    P (s.takeAck b o) := by
  refine hP.same (s.sameBooks_updBranch b fun d id hk => ?_) h
  rcases hk with hk | ⟨x, hx, -⟩ | ⟨e, he, hd, hi⟩
  · exact .inl hk
  · cases hx
  · rcases List.mem_append.1 he with he | he
    · exact .inr (.inr ⟨e, he, hd, hi⟩)
    · rw [List.mem_singleton] at he
      subst he
      exact .inr (.inl ⟨o, Branch.busOrder_eq_some.2 ⟨l, hb⟩, hd, hi⟩)

theorem Booked.noReply {b : BranchId} {e : Entry} {l : Nat} (hb : (s.branch b).bus = some { call := .entry e, left := l })
    (x : List Byte) : P (s.noReply b e x) := by
  have h' := hP.same (s.sameBooks_freeBus b) h
  unfold State.noReply
  dsimp only
  split
  · rename_i o
    exact hP.complete h' (hP.keeps (.inr (.inl ⟨o, Branch.busOrder_eq_some.2 ⟨l, hb⟩, rfl, rfl⟩)) h) _ _ _ _ _
  · exact hP.silent h' _
  · rename_i d _ _
    split
    · rename_i p hp
      have hd : p.drop = d := by simpa using List.find?_some hp
      exact hP.complete h' (hP.keeps (.inr (.inr ⟨p, List.mem_of_find?_eq_some hp, hd, rfl⟩)) h') _ _ _ _ _
    · exact h'
  · exact hP.same (State.sameBooks_updBranch _ b fun _ _ h => h) (hP.notFound h' _)
  · exact hP.same (State.sameBooks_answerService _ _ _) h'

theorem Booked.windowEnd (b : BranchId) (x : List Byte) : P (s.windowEnd b x) := by
  unfold State.windowEnd
  split
  · exact h
  · exact hP.same (s.sameBooks_freeBus b) h
  · rename_i hb; exact hP.noReply h hb x
  · rename_i e l hb
    refine hP.same (s.sameBooks_updBranch b fun d id hk => ?_) h
    refine hk.of_poll_sub (fun _ h => h) (fun _ h => h) fun o ho => ?_
    obtain ⟨i, hi⟩ := Branch.busOrder_eq_some.1 ho
    cases hi
    exact Branch.busOrder_eq_some.2 ⟨_, hb⟩

end Booked

end Sys2Proof.Machine
end


section
/-! SUPPORT. The agreement of the segment store's records (R48, R50 to R52) through the middle of an event: `State.Books` carries it
from the event's start, with the records of closed segments not yet on the free list. -/

namespace Sys2Proof.Machine

/-! ### Counting the segments -/

theorem Table.countP_eq {n : Nat} {α : Type} (t : Table n α) (p : α → Bool) :
    t.items.countP p = ((List.finRange n).filter fun i => p (t.get i)).length := by
  rw [Table.items_eq, List.countP_map, List.countP_eq_length_filter]
  rfl

/-- A count is the length of a list of its records' places, each once. -/
theorem Table.countP_eq_length {n : Nat} {α : Type} {t : Table n α} {p : α → Bool} {l : List (Fin n)} (hl : l.Nodup)
    (h : ∀ i, i ∈ l ↔ p (t.get i) = true) : t.items.countP p = l.length := by
  rw [Table.countP_eq]
  refine (List.Perm.length_eq ?_)
  rw [List.perm_ext_iff_of_nodup ((List.nodup_finRange n).filter _) hl]
  exact fun i => by simp [h]

theorem Table.countP_congr {n : Nat} {α : Type} {t u : Table n α} {p : α → Bool} (h : ∀ i, p (u.get i) = p (t.get i)) :
    u.items.countP p = t.items.countP p := by
  rw [Table.countP_eq, Table.countP_eq]
  simp only [h]

/-- A segment is in place of another: of the same slot and batch, and STAGED if that was. -/
structure Segment.Like (g h : Segment) : Prop where
  slot : h.slot = g.slot
  batch : h.batch = g.batch
  staged : h.state = .staged ↔ g.state = .staged

theorem Segment.Like.refl (g : Segment) : g.Like g := ⟨rfl, rfl, .rfl⟩
theorem Segment.Like.trans {a b c : Segment} (h : a.Like b) (k : b.Like c) : a.Like c :=
  ⟨k.slot.trans h.slot, k.batch.trans h.batch, k.staged.trans h.staged⟩

/-- From `s` to `t` the pool holds the same segments, states apart. -/
def State.SamePool (s t : State) : Prop := ∀ id, Option.Rel Segment.Like (s.seg id) (t.seg id)

section
variable {s t : State}

theorem State.SamePool.of_pool (h : t.pool = s.pool) : s.SamePool t := fun id => by
  simp only [State.seg, h]
  cases s.pool.get id
  · exact .none
  · exact .some (.refl _)

theorem State.samePool_updSeg (s : State) (id : SegId) {f : Segment → Segment} (hf : ∀ g, s.seg id = some g → g.Like (f g)) :
    s.SamePool (s.updSeg id f) := by
  intro i
  by_cases e : id = i
  · subst e
    rw [State.seg_updSeg_self]
    cases hg : s.seg id with
    | none => exact .none
    | some g => exact .some (hf g hg)
  · rw [State.seg_updSeg_ne _ _ e]
    cases s.seg i
    · exact .none
    · exact .some (.refl _)

section
variable (h : s.SamePool t)
include h

theorem State.SamePool.of_some {id : SegId} {g : Segment} (hg : t.seg id = some g) : ∃ x, s.seg id = some x ∧ x.Like g := by
  have := h id
  rw [hg] at this
  cases hs : s.seg id with
  | none => rw [hs] at this; cases this
  | some x => rw [hs] at this; cases this with | some hr => exact ⟨x, rfl, hr⟩

theorem State.SamePool.to_some {id : SegId} {g : Segment} (hg : s.seg id = some g) : ∃ x, t.seg id = some x ∧ g.Like x := by
  have := h id
  rw [hg] at this
  cases ht : t.seg id with
  | none => rw [ht] at this; cases this
  | some x => rw [ht] at this; cases this with | some hr => exact ⟨x, rfl, hr⟩

theorem State.SamePool.none_iff {id : SegId} : t.seg id = none ↔ s.seg id = none := by
  constructor
  · intro e
    cases hs : s.seg id with
    | none => rfl
    | some x =>
      obtain ⟨y, hy, -⟩ := h.to_some hs
      rw [e] at hy
      cases hy
  · intro e
    cases ht : t.seg id with
    | none => rfl
    | some x =>
      obtain ⟨y, hy, -⟩ := h.of_some ht
      rw [e] at hy
      cases hy

theorem State.SamePool.liveCount (b : Nat) :
    t.liveCount (fun g => decide (g.batch = some b)) = s.liveCount fun g => decide (g.batch = some b) := by
  refine Table.countP_congr fun i => ?_
  show Option.any _ (t.seg i) = Option.any _ (s.seg i)
  cases hs : s.seg i with
  | none => rw [h.none_iff.2 hs]
  | some g =>
    obtain ⟨x, hx, hl⟩ := h.to_some hs
    simp only [hx, Option.any_some, hl.batch]

theorem State.SamePool.batchSound {b : Batch} (hb : s.BatchSound b) : t.BatchSound b := by
  refine ⟨fun ho => ?_, fun hc => ?_, hb.ended⟩
  · obtain ⟨h1, h2, h3, h4, h5, h6, h7⟩ := hb.opened ho
    refine ⟨h1, h2, h3, h4, h5, h6, fun id => (h7 id).trans ⟨?_, ?_⟩⟩
    · rintro ⟨g, hg, hgb, hgs⟩
      obtain ⟨x, hx, hl⟩ := h.to_some hg
      exact ⟨x, hx, hl.batch.trans hgb, hl.staged.2 hgs⟩
    · rintro ⟨g, hg, hgb, hgs⟩
      obtain ⟨x, hx, hl⟩ := h.of_some hg
      exact ⟨x, hx, hl.batch.symm.trans hgb, hl.staged.1 hgs⟩
  · obtain ⟨h1, h2, h3⟩ := hb.committed hc
    exact ⟨h1, h2, h3.trans (h.liveCount b.id).symm⟩

end
end

/-! ### The accounts, the free list apart -/

/-- What of the agreement `State.Ledger` is kept all through an event: all but the free list. -/
structure State.Accounts (s : State) : Prop where
  chainOnce : ∀ n, (s.slot n).chain.Nodup ∧ (s.slot n).chain.length ≤ chainRoom
  chains : ∀ n id, id ∈ (s.slot n).chain ↔ ∃ g, s.seg id = some g ∧ g.slot = n ∧ g.state ≠ .staged
  ids : s.IdsOnce
  openOnce : ∀ i j x y, s.batches.get i = some x → s.batches.get j = some y → x.state = .opened → y.state = .opened → i = j
  batches : ∀ i x, s.batches.get i = some x → s.BatchSound x
  owned : ∀ id g b, s.seg id = some g → g.batch = some b →
    ∃ i x, s.batches.get i = some x ∧ x.id = b ∧ (g.state = .staged ↔ x.state = .opened)
  unowned : ∀ id g, s.seg id = some g → g.batch = none → g.state ≠ .staged
  keeps : ∀ b d id, (s.branch b).Keeps d id → id ∈ (s.slot (slotOf b d)).chain

theorem State.Ledger.accounts {s : State} (h : s.Ledger) : s.Accounts where
  chainOnce := h.chainOnce
  chains := h.chains
  ids := h.batchIds
  openOnce := h.openOnce
  batches := h.batches
  owned := h.owned
  unowned := h.unowned
  keeps b d id hk := by
    obtain ⟨o, ho, rfl, rfl⟩ | ⟨o, ho, rfl, rfl⟩ | ⟨e, he, rfl, rfl⟩ := hk
    · rw [Branch.mem_orders] at ho
      exact ho.elim (h.queued b o) (h.setBack b o)
    · obtain ⟨l, hl⟩ := Branch.busOrder_eq_some.1 ho
      exact h.onBus b o l hl
    · exact h.polled b e he

theorem State.Accounts.ledger {s : State} (h : s.Accounts) (hn : s.free.Nodup) (hf : ∀ id, id ∈ s.free ↔ s.seg id = none) :
    s.Ledger where
  freeOnce := hn
  freeRecords := hf
  chainOnce := h.chainOnce
  chains := h.chains
  batchIds := h.ids
  openOnce := h.openOnce
  batches := h.batches
  owned := h.owned
  unowned := h.unowned
  queued b o ho := h.keeps b _ _ (.inl ⟨o, (Branch.mem_orders _ _).2 (.inl ho), rfl, rfl⟩)
  setBack b o ho := h.keeps b _ _ (.inl ⟨o, (Branch.mem_orders _ _).2 (.inr ho), rfl, rfl⟩)
  onBus b o l hl := h.keeps b _ _ (.inr (.inl ⟨o, Branch.busOrder_eq_some.2 ⟨l, hl⟩, rfl, rfl⟩))
  polled b e he := h.keeps b _ _ (.inr (.inr ⟨e, he, rfl, rfl⟩))

section Accounts
variable {s t : State} (h : s.Accounts)
include h

theorem State.Accounts.samePool (hp : s.SamePool t) (hc : ∀ n, (t.slot n).chain = (s.slot n).chain) (hb : t.batches = s.batches)
    (hk : ∀ b d id, (t.branch b).Keeps d id → (s.branch b).Keeps d id) : t.Accounts where
  chainOnce n := by rw [hc]; exact h.chainOnce n
  chains n id := by
    rw [hc, h.chains n id]
    constructor
    · rintro ⟨g, hg, hs, hst⟩
      obtain ⟨x, hx, hl⟩ := hp.to_some hg
      exact ⟨x, hx, hl.slot.trans hs, fun e => hst (hl.staged.1 e)⟩
    · rintro ⟨g, hg, hs, hst⟩
      obtain ⟨x, hx, hl⟩ := hp.of_some hg
      exact ⟨x, hx, hl.slot.symm.trans hs, fun e => hst (hl.staged.2 e)⟩
  ids := by rw [State.IdsOnce, hb]; exact h.ids
  openOnce := by rw [hb]; exact h.openOnce
  batches i x hx := hp.batchSound (h.batches i x (by rw [← hb]; exact hx))
  owned id g b hg hgb := by
    obtain ⟨x, hx, hl⟩ := hp.of_some hg
    obtain ⟨i, y, hy, hid, ho⟩ := h.owned id x b hx (hl.batch.symm.trans hgb)
    exact ⟨i, y, by rw [hb]; exact hy, hid, hl.staged.trans ho⟩
  unowned id g hg hgb hst := by
    obtain ⟨x, hx, hl⟩ := hp.of_some hg
    exact h.unowned id x hx (hl.batch.symm.trans hgb) (hl.staged.1 hst)
  keeps b d id e := by rw [hc]; exact h.keeps b d id (hk b d id e)

theorem State.Accounts.same (k : s.SameBooks t) : t.Accounts := h.samePool (.of_pool k.pool) k.chain k.batches k.keeps

theorem State.Accounts.of_chain {n : SlotId} {id : SegId} (hid : id ∈ (s.slot n).chain) :
    ∃ g, s.seg id = some g ∧ g.slot = n ∧ g.state ≠ .staged := (h.chains n id).1 hid

/-- The record of a batch that a segment names. -/
theorem State.Accounts.owner {id : SegId} {g : Segment} {i : Fin 4} {x : Batch} (hg : s.seg id = some g)
    (hx : s.batches.get i = some x) (hb : g.batch = some x.id) : g.state = .staged ↔ x.state = .opened := by
  obtain ⟨j, y, hy, hid, ho⟩ := h.owned id g x.id hg hb
  have := h.ids i j x y hx hy hid.symm
  subst this
  rw [hx] at hy
  cases hy
  exact ho

end Accounts

/-! ### A segment closes -/

theorem branchOf_slotOf (b : BranchId) (d : DropId) : branchOf (slotOf b d) = b := by
  apply Fin.ext
  simp only [slotOf, branchOf]
  omega

theorem Batch.count_frame (o : SegOutcome) (b : Batch) : (b.count o).id = b.id ∧ (b.count o).state = b.state ∧
    (b.count o).loaded = b.loaded ∧ (b.count o).staging = b.staging ∧ (b.count o).endOrder = b.endOrder ∧
    (b.count o).pending = b.pending - 1 := by
  cases o <;> exact ⟨rfl, rfl, rfl, rfl, rfl, rfl⟩

/-- A closed segment counts once among the closed ones (R52). -/
theorem Batch.count_closed (o : SegOutcome) (b : Batch) :
    (b.count o).done + (b.count o).failed + (b.count o).skipped = b.done + b.failed + b.skipped + 1 := by
  cases o <;> simp only [Batch.count] <;> omega

theorem Branch.Keeps.of_forget {br : Branch} {id i : SegId} {d : DropId} (h : (br.forget id).Keeps d i) :
    br.Keeps d i ∧ i ≠ id := by
  obtain ⟨o, ho, rfl, rfl⟩ | ⟨o, ho, rfl, rfl⟩ | ⟨e, he, rfl, rfl⟩ := h
  · rw [Branch.mem_orders, Branch.order_mem_forget_queue, Branch.mem_forget_backlog] at ho
    obtain ⟨hq, hne⟩ | ⟨hq, hne⟩ := ho
    · exact ⟨.inl ⟨o, (Branch.mem_orders _ _).2 (.inl hq), rfl, rfl⟩, hne⟩
    · exact ⟨.inl ⟨o, (Branch.mem_orders _ _).2 (.inr hq), rfl, rfl⟩, hne⟩
  · obtain ⟨l, hl⟩ := Branch.busOrder_eq_some.1 ho
    obtain ⟨hb, hne⟩ := (Branch.forget_bus_order br id o l).1 hl
    exact ⟨.inr (.inl ⟨o, Branch.busOrder_eq_some.2 ⟨l, hb⟩, rfl, rfl⟩), hne⟩
  · obtain ⟨hp, hne⟩ := (Branch.mem_forget_poll br id e).1 he
    exact ⟨.inr (.inr ⟨e, hp, rfl, rfl⟩), hne⟩

section Closes
variable {s t : State} {id : SegId} {g : Segment} {o : SegOutcome} (hc : s.Closes t id g o)
include hc

theorem State.Closes.seg (i : SegId) : t.seg i = if id = i then none else s.seg i := by
  rw [State.seg, hc.pool, Table.get_set]
  rfl

theorem State.Closes.of_seg {i : SegId} {x : Segment} (hx : t.seg i = some x) : id ≠ i ∧ s.seg i = some x := by
  rw [hc.seg] at hx
  split at hx
  · cases hx
  · exact ⟨‹_›, hx⟩

theorem State.Closes.mem_chain {n : SlotId} {i : SegId} : i ∈ (t.slot n).chain ↔ i ∈ (s.slot n).chain ∧ (g.slot = n → i ≠ id) := by
  rw [hc.chain]
  split
  · rename_i e
    simp [e]
  · rename_i e
    simp [e]

theorem State.Closes.chain_sublist (n : SlotId) : (t.slot n).chain.Sublist (s.slot n).chain := by
  rw [hc.chain]
  split
  · exact List.filter_sublist
  · exact .refl _

theorem State.Closes.of_batch {i : Fin 4} {y : Batch} (hy : t.batches.get i = some y) :
    ∃ x, s.batches.get i = some x ∧ y = if g.batch = some x.id then x.count o else x := by
  rw [hc.batches, Option.map_eq_some_iff] at hy
  obtain ⟨x, hx, rfl⟩ := hy
  exact ⟨x, hx, rfl⟩

/-- Of a batch record nothing but its counts changes. -/
theorem State.Closes.of_batch_frame {i : Fin 4} {y : Batch} (hy : t.batches.get i = some y) :
    ∃ x, s.batches.get i = some x ∧ y.id = x.id ∧ y.state = x.state := by
  obtain ⟨x, hx, rfl⟩ := hc.of_batch hy
  refine ⟨x, hx, ?_⟩
  split
  · exact ⟨(x.count_frame o).1, (x.count_frame o).2.1⟩
  · exact ⟨rfl, rfl⟩

theorem State.Closes.liveCount (hg : s.seg id = some g) (p : Segment → Bool) :
    t.liveCount p + (if p g then 1 else 0) = s.liveCount p := by
  have hu := Table.countP_upd s.pool id (fun _ => none) (Option.any p)
  rw [show s.pool.get id = some g from hg] at hu
  have ht : t.liveCount p = (s.pool.upd id fun _ => none).items.countP (Option.any p) := by
    rw [State.liveCount, hc.pool]
    rfl
  rw [ht]
  exact hu

/-- The record of a batch as its segment closes (R49, R52). -/
theorem State.Closes.batchSound (h : s.Accounts) (hg : s.seg id = some g) (hst : g.state ≠ .staged) {i : Fin 4} {x : Batch}
    (hx : s.batches.get i = some x) : t.BatchSound (if g.batch = some x.id then x.count o else x) := by
  have hb := h.batches i x hx
  have hlive := hc.liveCount hg fun g => decide (g.batch = some x.id)
  split
  · rename_i hgb
    have hno : x.state ≠ .opened := fun e => hst ((h.owner hg hx hgb).2 e)
    obtain ⟨c1, c2, c3, c4, c5, c6⟩ := x.count_frame o
    obtain ⟨hs, hl, hp⟩ := hb.committed hno
    have hcount := x.count_closed o
    simp only [hgb, decide_true, if_true] at hlive
    refine ⟨fun e => absurd (c2.symm.trans e) hno, fun _ => ⟨c4.trans hs, ?_, ?_⟩, ?_, fun e => ?_⟩
    · omega
    · rw [c1]
      omega
    · rw [c2, c5]
      exact hb.ended.1
    · have := hb.ended.2 (by rw [← c2]; exact e)
      omega
  · rename_i hgb
    simp only [hgb, decide_false, Bool.false_eq_true, if_false, Nat.add_zero] at hlive
    refine ⟨fun e => ?_, fun e => ?_, hb.ended⟩
    · obtain ⟨h1, h2, h3, h4, h5, h6, h7⟩ := hb.opened e
      refine ⟨h1, h2, h3, h4, h5, h6, fun j => (h7 j).trans ⟨?_, ?_⟩⟩
      · rintro ⟨y, hy, hyb, hys⟩
        refine ⟨y, ?_, hyb, hys⟩
        rw [hc.seg, if_neg, hy]
        rintro rfl
        rw [hg] at hy
        cases hy
        exact hst hys
      · rintro ⟨y, hy, hyb, hys⟩
        exact ⟨y, (hc.of_seg hy).2, hyb, hys⟩
    · rw [hlive]
      exact hb.committed e

theorem State.Accounts.closes (h : s.Accounts) (hg : s.seg id = some g) (hst : g.state ≠ .staged) : t.Accounts where
  chainOnce n := ⟨(h.chainOnce n).1.sublist (hc.chain_sublist n), (hc.chain_sublist n).length_le.trans (h.chainOnce n).2⟩
  chains n i := by
    rw [hc.mem_chain, h.chains n i]
    constructor
    · rintro ⟨⟨x, hx, hs, hxs⟩, hne⟩
      refine ⟨x, ?_, hs, hxs⟩
      rw [hc.seg, if_neg, hx]
      rintro rfl
      rw [hg] at hx
      cases hx
      exact hne hs rfl
    · rintro ⟨x, hx, hs, hxs⟩
      obtain ⟨hne, hx⟩ := hc.of_seg hx
      exact ⟨⟨x, hx, hs, hxs⟩, fun _ => Ne.symm hne⟩
  ids i j x y hx hy e := by
    obtain ⟨x', hx', e1, -⟩ := hc.of_batch_frame hx
    obtain ⟨y', hy', e2, -⟩ := hc.of_batch_frame hy
    exact h.ids i j x' y' hx' hy' (e1.symm.trans (e.trans e2))
  openOnce i j x y hx hy ex ey := by
    obtain ⟨x', hx', -, e1⟩ := hc.of_batch_frame hx
    obtain ⟨y', hy', -, e2⟩ := hc.of_batch_frame hy
    exact h.openOnce i j x' y' hx' hy' (e1.symm.trans ex) (e2.symm.trans ey)
  batches i y hy := by
    obtain ⟨x, hx, rfl⟩ := hc.of_batch hy
    exact hc.batchSound h hg hst hx
  owned i x b hx hxb := by
    obtain ⟨j, y, hy, hid, ho⟩ := h.owned i x b (hc.of_seg hx).2 hxb
    have hy' : t.batches.get j = some (if g.batch = some y.id then y.count o else y) := by rw [hc.batches, hy]; rfl
    obtain ⟨z, hz, e1, e2⟩ := hc.of_batch_frame hy'
    rw [hy] at hz
    cases hz
    exact ⟨j, _, hy', e1.trans hid, by rw [e2]; exact ho⟩
  unowned i x hx hxb := h.unowned i x (hc.of_seg hx).2 hxb
  keeps b d i hk := by
    have hold : (s.branch b).Keeps d i ∧ (g.slot = slotOf b d → i ≠ id) := by
      simp only [State.branch, hc.branches] at hk
      by_cases e : branchOf g.slot = b
      · subst e
        rw [Table.get_upd_self] at hk
        exact ⟨hk.of_forget.1, fun _ => hk.of_forget.2⟩
      · rw [Table.get_upd_ne _ _ e] at hk
        exact ⟨hk, fun he => absurd (by rw [he, branchOf_slotOf]) e⟩
    exact hc.mem_chain.2 ⟨h.keeps b d i hold.1, hold.2⟩

end Closes

/-! ### Batches that end -/

section Ends
variable {s : State} (h : s.Accounts)
include h

theorem State.Accounts.to_endBatches {i : Fin 4} {x : Batch} (hx : s.batches.get i = some x) :
    ∃ y, s.endBatches.batches.get i = some y ∧ (y = x ∨ x.finished = true ∧ ∃ k, y = x.ended k) := by
  obtain ⟨-, h1⟩ := h.ids.get_endBatches i
  cases hf : x.finished with
  | false => exact ⟨x, (h1 x hx).2 hf, .inl rfl⟩
  | true =>
    obtain ⟨k, hk⟩ := (h1 x hx).1 hf
    exact ⟨_, hk, .inr ⟨rfl, k, rfl⟩⟩

omit h in
theorem Batch.finished_iff {x : Batch} : x.finished = true ↔ x.pending = 0 ∧ (x.state = .running ∨ x.state = .aborting) := by
  simp [Batch.finished]

omit h in
theorem Batch.ended_state {x : Batch} (hf : x.finished = true) (k : Nat) :
    x.state ≠ .opened ∧ (x.ended k).state ≠ .opened ∧ (x.ended k).state ≠ .aborting := by
  obtain ⟨-, hs | hs⟩ := Batch.finished_iff.1 hf <;> simp [Batch.ended, hs]

omit h in
theorem Batch.ended_sound {x : Batch} (hf : x.finished = true) (hb : s.BatchSound x) (k : Nat) : s.BatchSound (x.ended k) := by
  obtain ⟨hno, hno', -⟩ := Batch.ended_state hf k
  refine ⟨fun e => absurd e hno', fun _ => hb.committed hno, ?_, fun _ => (Batch.finished_iff.1 hf).1⟩
  simp only [Batch.ended]
  split <;> simp

theorem State.Accounts.endBatches : s.endBatches.Accounts := by
  have hid : ∀ {x y : Batch}, (y = x ∨ x.finished = true ∧ ∃ k, y = x.ended k) →
      y.id = x.id ∧ (y.state = .opened ↔ x.state = .opened) ∧ (s.BatchSound x → s.BatchSound y) := by
    rintro x y (rfl | ⟨hf, k, rfl⟩)
    · exact ⟨rfl, .rfl, fun h => h⟩
    · obtain ⟨hno, hno', -⟩ := Batch.ended_state hf k
      exact ⟨rfl, iff_of_false hno' hno, fun hb => Batch.ended_sound hf hb k⟩
  have hsame : ∀ b, s.BatchSound b → s.endBatches.BatchSound b := by
    obtain ⟨_, _, _, _, _, e⟩ := s.endBatches_eq
    exact fun b => State.SamePool.batchSound (.of_pool (by rw [e]))
  have hids := h.ids.endBatches
  have hget := fun i y => h.ids.of_endBatches (i := i) (y := y)
  have hput := fun i x => h.to_endBatches (i := i) (x := x)
  obtain ⟨bs, _, _, _, _, e⟩ := s.endBatches_eq
  rw [e] at hget hput hsame hids ⊢
  refine ⟨h.chainOnce, h.chains, fun i j x y hx hy hxy => ?_, fun i j x y hx hy hxo hyo => ?_, fun i y hy => ?_,
    fun id g b hg hgb => ?_, h.unowned, h.keeps⟩
  · exact hids i j x y hx hy hxy
  · obtain ⟨x', hx', ex⟩ := hget i x hx
    obtain ⟨y', hy', ey⟩ := hget j y hy
    exact h.openOnce i j x' y' hx' hy' ((hid ex).2.1.1 hxo) ((hid ey).2.1.1 hyo)
  · obtain ⟨x, hx, ex⟩ := hget i y hy
    exact hsame y ((hid ex).2.2 (h.batches i x hx))
  · obtain ⟨i, x, hx, hxb, ho⟩ := h.owned id g b hg hgb
    obtain ⟨y, hy, ey⟩ := hput i x hx
    exact ⟨i, y, hy, (hid ey).1.trans hxb, ho.trans (hid ey).2.1.symm⟩

end Ends

/-! ### The middle of an event -/

/-- No segment of an ABORTING batch is CHAINED but those of `X`. -/
def State.ChainedWithin (X : SegId → Prop) (s : State) : Prop :=
  ∀ id g i x, s.seg id = some g → s.batches.get i = some x → g.batch = some x.id → x.state = .aborting → g.state = .chained → X id

theorem State.noneChainedAborting_iff {s : State} : s.NoneChainedAborting ↔ s.ChainedWithin fun _ => False :=
  ⟨fun h id g i x h1 h2 h3 h4 h5 => h id g i x h1 h2 h3 h4 h5, fun h id g i x h1 h2 h3 h4 h5 => h id g i x h1 h2 h3 h4 h5⟩

/-- From the event's start `o` to `s` segments have closed and changed their state, none that was STAGED; the free list is that of
the event's start, and the records' accounts agree. -/
structure State.Books (X : SegId → Prop) (o s : State) : Prop extends s.Accounts where
  free : s.free = o.free
  came : ∀ id g, s.seg id = some g → ∃ h, o.seg id = some h ∧ h.Like g
  staged : ∀ id h, o.seg id = some h → h.state = .staged → s.seg id ≠ none
  within : s.ChainedWithin X

/-- In `o` segment `id`, if there is one, is in the chain of slot `n`. -/
def State.Placed (o : State) (n : SlotId) (id : SegId) : Prop := ∀ h, o.seg id = some h → h.slot = n ∧ h.state ≠ .staged

/-- In `o` segment `x.1`, if there is one, is in the chain of slot `n` and of the batch of `x.2`. -/
def State.Knows (o : State) (n : SlotId) (x : SegId × Segment) : Prop :=
  o.Placed n x.1 ∧ ∀ h, o.seg x.1 = some h → h.batch = x.2.batch

end Sys2Proof.Machine
end


section
/-! SUPPORT. Every operation of an event carries the books of the segment store (R48, R50 to R52, R62), and the end of the event
returns the records of the segments that closed. -/

namespace Sys2Proof.Machine

section Books
variable {X : SegId → Prop} {o s t : State}

/-- What stands in a chain of `s` has its place there since the event's start. -/
theorem State.Books.placed (h : State.Books X o s) {n : SlotId} {id : SegId} (hid : id ∈ (s.slot n).chain) : o.Placed n id := by
  obtain ⟨g, hg, hs, hst⟩ := h.of_chain hid
  obtain ⟨x, hx, hl⟩ := h.came id g hg
  intro y hy
  rw [hx] at hy
  cases hy
  exact ⟨hl.slot.symm.trans hs, fun e => hst (hl.staged.2 e)⟩

theorem State.Books.of_placed (h : State.Books X o s) {n : SlotId} {id : SegId} (hp : o.Placed n id) {g : Segment}
    (hg : s.seg id = some g) : g.slot = n ∧ g.state ≠ .staged := by
  obtain ⟨x, hx, hl⟩ := h.came id g hg
  obtain ⟨h1, h2⟩ := hp x hx
  exact ⟨hl.slot.trans h1, fun e => h2 (hl.staged.1 e)⟩

theorem State.Books.same (h : State.Books X o s) (k : s.SameBooks t) : State.Books X o t where
  toAccounts := h.toAccounts.same k
  free := k.free.trans h.free
  came id g hg := h.came id g (by rwa [State.seg, k.pool] at hg)
  staged id g hg hs := by
    rw [State.seg, k.pool]
    exact h.staged id g hg hs
  within id g i x hg hx := h.within id g i x (by rwa [State.seg, k.pool] at hg) (by rwa [k.batches] at hx)

theorem State.Books.refl (h : s.Accounts) (hw : s.ChainedWithin X) : State.Books X s s where
  toAccounts := h
  free := rfl
  came id g hg := ⟨g, hg, .refl g⟩
  staged id g hg _ := by rw [hg]; nofun
  within := hw

/-- A segment changes its state, neither STAGED before nor behind, and comes to be CHAINED only outside ABORTING batches. -/
theorem State.Books.updSeg (h : State.Books X o s) (id : SegId) {f : Segment → Segment}
    (hf : ∀ g, s.seg id = some g → g.Like (f g))
    (hw : ∀ g i x, s.seg id = some g → s.batches.get i = some x → g.batch = some x.id → x.state = .aborting →
      (f g).state = .chained → g.state = .chained) : State.Books X o (s.updSeg id f) where
  toAccounts := h.samePool (s.samePool_updSeg id hf) (fun _ => rfl) rfl fun _ _ _ h => h
  free := h.free
  came i g hg := by
    obtain ⟨x, hx, hl⟩ := (s.samePool_updSeg id hf).of_some hg
    obtain ⟨y, hy, hl'⟩ := h.came i x hx
    exact ⟨y, hy, hl'.trans hl⟩
  staged i g hg hs e := h.staged i g hg hs ((s.samePool_updSeg id hf).none_iff.1 e)
  within i g j x hg hx hb hst hc := by
    by_cases e : id = i
    · subst e
      rw [State.seg_updSeg_self, Option.map_eq_some_iff] at hg
      obtain ⟨y, hy, rfl⟩ := hg
      have hyb : y.batch = some x.id := (hf y hy).batch.symm.trans hb
      exact h.within id y j x hy hx hyb hst (hw y j x hy hx hyb hst hc)
    · rw [State.seg_updSeg_ne _ _ e] at hg
      exact h.within i g j x hg hx hb hst hc

/-- A segment of a chain changes its state, and is not CHAINED behind. -/
theorem State.Books.updState (h : State.Books X o s) {n : SlotId} {id : SegId} (hp : o.Placed n id) {st : SegState} {c : Bool}
    (h1 : st ≠ .staged) (h2 : st ≠ .chained) : State.Books X o (s.updSeg id fun g => { g with state := st, continuation := c }) :=
  h.updSeg id (fun _ hg => ⟨rfl, rfl, iff_of_false h1 (h.of_placed hp hg).2⟩) fun _ _ _ _ _ _ _ e => absurd e h2

theorem State.Books.close (h : State.Books X o s) {n : SlotId} {id : SegId} (out : SegOutcome) (hp : o.Placed n id) :
    State.Books X o (s.closeSeg id out) := by
  cases hg : s.seg id with
  | none => rw [State.closeSeg_of_none hg]; exact h
  | some g =>
    have hc := State.closes_closeSeg hg out
    refine ⟨h.closes hc hg (h.of_placed hp hg).2, hc.free.trans h.free, fun i x hx => h.came i x (hc.of_seg hx).2,
      fun i x hx hs e => ?_, fun i x j b hx hb hxb hst hch => ?_⟩
    · rw [hc.seg] at e
      split at e
      · rename_i hi
        subst hi
        exact (hp x hx).2 hs
      · exact h.staged i x hx hs e
    · obtain ⟨y, hy, e1, e2⟩ := hc.of_batch_frame hb
      exact h.within i x j y (hc.of_seg hx).2 hy (hxb.trans (congrArg some e1)) (e2.symm.trans hst) hch

theorem State.Books.endBatches (h : State.Books X o s) : State.Books X o s.endBatches := by
  have hA := h.toAccounts.endBatches
  have hof := fun i y => h.ids.of_endBatches (i := i) (y := y)
  obtain ⟨bs, _, _, _, _, e⟩ := s.endBatches_eq
  rw [e] at hA hof ⊢
  refine ⟨hA, h.free, h.came, h.staged, fun id g i y hg hy hb hst hc => ?_⟩
  obtain ⟨x, hx, rfl | ⟨hf, k, rfl⟩⟩ := hof i y hy
  · exact h.within id g i y hg hx hb hst hc
  · exact absurd hst (Batch.ended_state hf k).2.2

/-- No ABORTING batch has a segment that is withdrawn to CHAINED (R62). -/
theorem State.abortingBatch_of {g : Segment} (h : s.IdsOnce) {i : Fin 4} {x : Batch} (hx : s.batches.get i = some x)
    (hb : g.batch = some x.id) (hst : x.state = .aborting) : s.abortingBatch g = true := by
  simp [State.abortingBatch, hb, h.batchOf hx, hst]

theorem State.Books.chained (h : State.Books X o s) {n : SlotId} {x : SegId × Segment} (hk : o.Knows n x)
    (ha : s.abortingBatch x.2 = false) :
    State.Books X o (s.updSeg x.1 fun g => { g with state := .chained, continuation := false }) := by
  refine h.updSeg x.1 (fun g hg => ⟨rfl, rfl, iff_of_false nofun (h.of_placed hk.1 hg).2⟩) fun g i b hg hb hgb hst _ => ?_
  obtain ⟨y, hy, hl⟩ := h.came x.1 g hg
  have : x.2.batch = some b.id := (hk.2 y hy).symm.trans (hl.batch.symm.trans hgb)
  rw [State.abortingBatch_of h.ids hb this hst] at ha
  cases ha

theorem State.Books.record (h : State.Books X o s) {n : SlotId} {id : SegId} {g : Segment} (hp : o.Placed n id)
    (hg : s.seg id = some g) : o.Knows n (id, g) := by
  refine ⟨hp, fun y hy => ?_⟩
  obtain ⟨x, hx, hl⟩ := h.came id g hg
  rw [hx] at hy
  cases hy
  exact hl.batch.symm

theorem State.Books.order (h : State.Books X o s) {n : SlotId} {id : SegId} {f : Branch → Branch} (hp : o.Placed n id)
    (hs : s.seg id ≠ none) (hf : ∀ d i, (f (s.branch (branchOf n))).Keeps d i →
      (s.branch (branchOf n)).Keeps d i ∨ (d = dropOf n ∧ i = id)) : State.Books X o (s.updBranch (branchOf n) f) := by
  have hkeeps : ∀ b d i, ((s.updBranch (branchOf n) f).branch b).Keeps d i → i ∈ (s.slot (slotOf b d)).chain := by
    intro b d i hk
    by_cases e : branchOf n = b
    · subst e
      rw [State.branch_updBranch_self] at hk
      obtain hk | ⟨rfl, rfl⟩ := hf d i hk
      · exact h.keeps _ d i hk
      · obtain ⟨g, hg⟩ := Option.ne_none_iff_exists'.1 hs
        rw [slotOf_branchOf]
        exact (h.chains n i).2 ⟨g, hg, h.of_placed hp hg⟩
    · rw [State.branch_updBranch_ne _ _ e] at hk
      exact h.keeps b d i hk
  have hsame : s.SamePool (s.updBranch (branchOf n) f) := .of_pool rfl
  exact ⟨⟨h.chainOnce, h.chains, h.ids, h.openOnce, fun i x hx => hsame.batchSound (h.batches i x hx), h.owned, h.unowned, hkeeps⟩,
    h.free, h.came, h.staged, h.within⟩

end Books

/-- The books are carried through an event by every operation. -/
theorem booked_books (X : SegId → Prop) (o : State) : Booked o.Placed o.Knows (State.Books X o) where
  same k h := h.same k
  known hx h := h.record (h.placed (State.mem_chainSegs hx).1) (State.mem_chainSegs hx).2
  place hk := hk.1
  record hp hg h := h.record hp hg
  keeps hk h := h.placed (h.keeps _ _ _ hk)
  close out hp h := h.close out hp
  chained hk ha h := h.chained hk ha
  active hp h := h.updState hp (by decide) (by decide)
  mark id h := h.updSeg id (fun _ _ => ⟨rfl, rfl, .rfl⟩) fun _ _ _ _ _ _ _ e => e
  order hp hs hf h := h.order hp hs hf
  granted hp h := h.updState hp (by decide) (by decide)
  endBatches h := h.endBatches

/-! ### The end of an event (R48) -/

theorem State.settleEvent_frame (s old : State) : ∃ sc ln, s.settleEvent old =
    { s with scanDue := sc, links := ln, free := (closedIn old s).reverse ++ s.free } := by
  obtain ⟨ln, e⟩ := s.flushReleases_eq old
  rw [State.settleEvent, e, State.returnRecords, foldl_cons_eq_reverse_append]
  exact ⟨_, _, rfl⟩

section
variable {s o : State} (ho : o.Accounts)
include ho

theorem State.Accounts.mem_closedIn {id : SegId} :
    id ∈ closedIn o s ↔ (∃ g, o.seg id = some g ∧ g.state ≠ .staged) ∧ s.seg id = none := by
  simp only [closedIn, List.mem_flatMap, List.mem_filter, Bool.and_eq_true, Option.isNone_iff_eq_none, ho.chains]
  constructor
  · rintro ⟨n, -, ⟨g, hg, -, hst⟩, -, hs⟩
    exact ⟨⟨g, hg, hst⟩, hs⟩
  · rintro ⟨⟨g, hg, hst⟩, hs⟩
    exact ⟨g.slot, List.mem_finRange _, ⟨g, hg, rfl, hst⟩, by simp [hg], hs⟩

theorem State.Accounts.nodup_closedIn : (closedIn o s).Nodup := by
  refine List.nodup_flatMap.2 ⟨fun n _ => (ho.chainOnce n).1.filter _, (List.nodup_finRange 96).imp fun hne => ?_⟩
  intro id h1 h2
  obtain ⟨g, hg, e1, -⟩ := ho.of_chain (List.mem_filter.1 h1).1
  obtain ⟨g', hg', e2, -⟩ := ho.of_chain (List.mem_filter.1 h2).1
  rw [hg] at hg'
  cases hg'
  exact hne (e1.symm.trans e2)

end

/-- The segment store agrees, and no segment of an ABORTING batch is CHAINED but those of `X`. -/
structure State.Kept (X : SegId → Prop) (s : State) : Prop extends s.Ledger where
  within : s.ChainedWithin X

section Kept
variable {X : SegId → Prop} {o s t : State}

theorem State.Kept.books (h : s.Kept X) : State.Books X s s := .refl h.toLedger.accounts h.within

theorem State.Kept.same (h : s.Kept X) (k : s.SameBooks t) : t.Kept X where
  toLedger := (h.books.same k).ledger (by rw [k.free]; exact h.freeOnce) fun id => by
    rw [k.free, State.seg, k.pool]
    exact h.freeRecords id
  within := (h.books.same k).within

theorem State.Kept.elsewhere (h : s.Kept X) (hs : t.slots = s.slots) (hp : t.pool = s.pool) (hb : t.batches = s.batches)
    (hf : t.free = s.free) (hr : t.branches = s.branches) : t.Kept X := h.same (.of_eq hs hp hb hf hr)

/-- The returned records make the free list agree again (R48). -/
theorem State.Books.settleEvent (h : State.Books X o s) (ho : o.Ledger) : (s.settleEvent o).Kept X := by
  obtain ⟨sc, ln, e⟩ := s.settleEvent_frame o
  have hA := ho.accounts
  have hnone : ∀ id, o.seg id = none → s.seg id = none := fun id e => by
    cases hg : s.seg id with
    | none => rfl
    | some g =>
      obtain ⟨x, hx, -⟩ := h.came id g hg
      rw [e] at hx
      cases hx
  have hfree : (closedIn o s).reverse ++ s.free = (closedIn o s).reverse ++ o.free := by rw [h.free]
  rw [e, hfree]
  have hacc : State.Accounts { s with scanDue := sc, links := ln, free := (closedIn o s).reverse ++ o.free } :=
    h.samePool (.of_pool rfl) (fun _ => rfl) rfl fun _ _ _ h => h
  refine ⟨hacc.ledger ?_ fun id => ?_, h.within⟩
  · refine List.nodup_append'.2 ⟨List.nodup_reverse.2 hA.nodup_closedIn, ho.freeOnce, fun id h1 h2 => ?_⟩
    obtain ⟨⟨g, hg, -⟩, -⟩ := hA.mem_closedIn.1 (List.mem_reverse.1 h1)
    rw [(ho.freeRecords id).1 h2] at hg
    cases hg
  · show id ∈ (closedIn o s).reverse ++ o.free ↔ s.seg id = none
    rw [List.mem_append, List.mem_reverse, hA.mem_closedIn, ho.freeRecords]
    constructor
    · rintro (⟨-, hn⟩ | hn)
      · exact hn
      · exact hnone id hn
    · intro hn
      cases hg : o.seg id with
      | none => exact .inr rfl
      | some g => exact .inl ⟨⟨g, rfl, fun e => h.staged id g hg e hn⟩, hn⟩

theorem State.Books.finish (h : State.Books X o s) (ho : o.Ledger) : (s.finish o).Kept X :=
  State.Books.settleEvent ((booked_books X o).driven.runBuses h) ho

/-- No segment closed, so no record returns. -/
theorem State.Books.kept (h : State.Books X o s) (ho : o.Ledger) (hs : ∀ id, o.seg id ≠ none → s.seg id ≠ none) : s.Kept X where
  toLedger := h.ledger (by rw [h.free]; exact ho.freeOnce) fun id => by
    rw [h.free, ho.freeRecords]
    constructor
    · intro e
      cases hg : s.seg id with
      | none => rfl
      | some g =>
        obtain ⟨x, hx, -⟩ := h.came id g hg
        rw [e] at hx
        cases hx
    · intro e
      by_contra hne
      exact hs id hne e
  within := h.within

theorem State.Rests.seg_ne_none (h : s.Rests t) {id : SegId} (hs : s.seg id ≠ none) : t.seg id ≠ none := by
  obtain ⟨g, hg⟩ := Option.ne_none_iff_exists'.1 hs
  obtain ⟨x, hx, -⟩ := h.kept id g hg
  rw [hx]
  nofun

theorem State.Kept.arbitrate (h : s.Kept X) (b : BranchId) : (s.arbitrate b).Kept X :=
  ((booked_books X s).driven.arbitrate h.books b).kept h.toLedger fun _ => (State.rests_arbitrate s b).seg_ne_none

theorem State.Kept.runBuses (h : s.Kept X) : s.runBuses.Kept X :=
  ((booked_books X s).driven.runBuses h.books).kept h.toLedger fun _ => ((State.quiet_rests s).runBuses (.refl s)).seg_ne_none

end Kept

end Sys2Proof.Machine
end


section
/-! SUPPORT. The records of the segment store over events and requests: what touches none of them, and what keeps their agreement
(`State.Kept`). -/

namespace Sys2Proof.Machine

/-! ### What touches no record of a segment -/

section
variable (s : State)

theorem State.sameBooks_sendRelease (k : LinkId) (l : List CellId) : s.SameBooks (s.sendRelease k l) := by
  unfold State.sendRelease
  split
  · exact .refl s
  · exact .of_eq rfl rfl rfl rfl rfl

theorem State.sameBooks_endClaim (k : LinkId) (c : Claim) (e : ClaimEnd) : s.SameBooks (s.endClaim k c e) :=
  .of_eq rfl rfl rfl rfl rfl

theorem State.sameBooks_backOff (c : Claim) : s.SameBooks (s.backOff c) := by
  unfold State.backOff
  split
  · exact .refl s
  · exact .of_eq rfl rfl rfl rfl rfl

theorem State.sameBooks_causeScan : s.SameBooks s.causeScan := .of_eq rfl rfl rfl rfl rfl
theorem State.sameBooks_clockTo (t : Nat) : s.SameBooks (s.clockTo t) := .of_eq rfl rfl rfl rfl rfl

theorem State.sameBooks_timeOutClaim (k : LinkId) : s.SameBooks (s.timeOutClaim k) := by
  unfold State.timeOutClaim
  split
  · exact (((s.sameBooks_sendRelease k _).trans (State.sameBooks_endClaim _ k _ _)).trans (State.sameBooks_backOff _ _)).trans
      (State.sameBooks_causeScan _)
  · exact .refl s

theorem State.sameBooks_enterLink (k : LinkId) (st : LinkState) : s.SameBooks (s.enterLink k st) := .of_eq rfl rfl rfl rfl rfl

theorem State.sameBooks_updLink (k : LinkId) (f : Link → Link) : s.SameBooks (s.updLink k f) := .of_eq rfl rfl rfl rfl rfl

theorem State.sameBooks_countTimeout (k : LinkId) : s.SameBooks (s.countTimeout k) := by
  unfold State.countTimeout
  split
  · exact .refl s
  · have h := s.sameBooks_updLink k fun l => { l with timeouts := l.timeouts + 1 }
    dsimp only
    split
    · exact (h.trans (State.sameBooks_enterLink _ k _)).trans (State.sameBooks_timeOutClaim _ k)
    · exact h

theorem State.sameBooks_greet (k : LinkId) (x : SectorId) : s.SameBooks (s.greet k x) := by
  have h := s.sameBooks_updLink k fun l => { l with neighbour := some x, timeouts := 0 }
  unfold State.greet
  dsimp only
  split
  · exact h.trans (State.sameBooks_enterLink _ k _)
  · exact h

theorem State.sameBooks_takeClaim (k : LinkId) (n : Byte) (l : List Nat) : s.SameBooks (s.takeClaim k n l) := by
  unfold State.takeClaim
  repeat' split
  all_goals exact .of_eq rfl rfl rfl rfl rfl

theorem State.sameBooks_takeRelease (k : LinkId) (l : List Nat) : s.SameBooks (s.takeRelease k l) := by
  unfold State.takeRelease
  dsimp only
  split
  · exact .of_eq rfl rfl rfl rfl rfl
  · exact .of_eq rfl rfl rfl rfl rfl

theorem State.sameBooks_report (k : LinkId) : s.SameBooks (s.report k) := .of_eq rfl rfl rfl rfl rfl

theorem State.sameBooks_applyLent (k : LinkId) (l : List CellId) : s.SameBooks (s.applyLent k l) := by
  refine State.SameBooks.trans (t := s.updCells _) ?_ (State.sameBooks_sendRelease _ k _)
  exact .of_eq rfl rfl rfl rfl rfl

theorem State.sameBooks_applyBorrowed (k : LinkId) (l : List CellId) : s.SameBooks (s.applyBorrowed k l) :=
  .of_eq rfl rfl rfl rfl rfl

theorem State.sameBooks_takeReport (k : LinkId) (a b : List Nat) : s.SameBooks (s.takeReport k a b) := by
  have hend : ∀ u : State, u.SameBooks ((u.applyBorrowed k (s.cellsOn k b)).applyLent k (s.cellsOn k a)) := fun u =>
    (u.sameBooks_applyBorrowed k _).trans (State.sameBooks_applyLent _ k _)
  have h := s.sameBooks_updLink k fun l => { l with syncOwed := false, syncTimer := none }
  unfold State.takeReport
  dsimp only
  split
  · exact h.trans (hend _)
  · exact (h.trans (State.sameBooks_enterLink _ k .up)).trans (hend _)

theorem State.sameBooks_found (n : SlotId) : s.SameBooks (s.found n) := by
  unfold State.found
  split
  · have h1 : s.SameBooks (s.castShadow n) := .of_eq rfl rfl rfl rfl rfl
    exact (h1.trans (State.sameBooks_updSlot _ n (f := fun sl => { sl with state := .unknown, populated := true }) fun _ => rfl)).trans
      (State.rejudged_judge _ n).sameBooks
  · exact .refl s

theorem State.sameBooks_placeAt (n : SlotId) (a : Theta) (f : Phi) (l : List CellId) : s.SameBooks (s.placeAt n a f l) := by
  have h1 : ∀ u : State, u.SameBooks (u.takeCells n l) := fun u => .of_eq rfl rfl rfl rfl rfl
  have h2 := ((((s.sameBooks_moveStand n (.footprint a f l)).trans (h1 _)).trans (State.sameBooks_settleCells _ n)).trans
    (State.sameBooks_updSlot _ n (f := fun sl => { sl with state := sl.state.parkedBy }) fun _ => rfl)).trans
    (State.rejudged_judge _ n).sameBooks
  unfold State.placeAt
  dsimp only
  split
  · exact h2.trans (State.sameBooks_causeScan _)
  · exact h2

theorem State.sameBooks_scanWhen (b : Bool) : s.SameBooks (s.scanWhen b) := by
  unfold State.scanWhen
  split
  · exact s.sameBooks_causeScan
  · exact .refl s

theorem State.sameBooks_kickPorts : s.SameBooks s.kickPorts := by
  obtain ⟨_, _, e⟩ := s.kickPorts_eq
  rw [e]
  exact .of_eq rfl rfl rfl rfl rfl

theorem State.sameBooks_make (r : Reply) (p : PortId) : r.state.SameBooks (r.make p) := by
  unfold Reply.make
  split
  · exact .of_eq rfl rfl rfl rfl rfl
  · exact .refl _

theorem State.sameBooks_takeInHand (p : PortId) (c q : Nat) : s.SameBooks (s.takeInHand p c q) := .of_eq rfl rfl rfl rfl rfl
theorem State.sameBooks_refuseBusy (p : PortId) (c q : Nat) : s.SameBooks (s.refuseBusy p c q) := .of_eq rfl rfl rfl rfl rfl

/-- What a take changes of a branch: orders of its queue move to its backlog (R111). -/
theorem State.sameBooks_startTake_branch (b : BranchId) : s.SameBooks (s.updBranch b fun br =>
    { br with
      access := .taking
      queue := br.queue.filter fun e => (s.setsBack e).isNone && !e.idle
      backlog := (s.branch b).queue.filterMap s.setsBack ++ br.backlog }) := by
  refine s.sameBooks_updBranch b fun d id h => h.of_poll_sub (fun _ h => h) (fun o ho => ?_) fun _ h => h
  rw [Branch.mem_orders] at ho ⊢
  obtain ho | ho := ho
  · exact .inl (List.mem_filter.1 ho).1
  · obtain ho | ho := List.mem_append.1 ho
    · obtain ⟨e, he, hb⟩ := List.mem_filterMap.1 ho
      unfold State.setsBack at hb
      split at hb
      · split at hb
        · cases hb
          exact .inl he
        · cases hb
      · cases hb
    · exact .inr ho

end

/-! ### Requests and events -/

section Kept
variable {X : SegId → Prop} {s : State} (h : s.Kept X)
include h

theorem State.Kept.request (p : PortId) (c : ReqCode) (seq : Nat) (rule : State → Reply)
    (hr : ∀ {u : State}, u.Kept X → (rule u).state.Kept X) : (s.request p c seq rule).Kept X := by
  have hT := h.same (s.sameBooks_takeInHand p c.number seq)
  unfold State.request
  split
  · exact h
  · split
    · exact h
    · split
      · exact (h.same (s.sameBooks_refuseBusy p _ _)).same (State.sameBooks_kickPorts _)
      · refine State.Kept.same (State.Kept.same ?_ (State.sameBooks_make _ p)) (State.sameBooks_kickPorts _)
        unfold State.judgeRequest
        split
        · exact hT
        · split
          · exact hT
          · exact hr hT

/-- A request whose rule writes store and timebase alone. -/
theorem State.Kept.request_writesOnly (p : PortId) (c : ReqCode) (seq : Nat) {rule : State → Reply} (hw : WritesOnly rule) :
    (s.request p c seq rule).Kept X :=
  h.request p c seq rule fun {u} hu => by
    obtain ⟨_, _, e⟩ := hw u
    rw [e]
    exact hu.elsewhere rfl rfl rfl rfl rfl

theorem State.Kept.badForm (p : PortId) (c q : Nat) : (s.badForm p c q).Kept X := by
  unfold State.badForm
  split
  · exact h
  · split
    · exact h
    · split
      · exact (h.same (s.sameBooks_refuseBusy p _ _)).same (State.sameBooks_kickPorts _)
      · exact State.Kept.same (s := (s.takeInHand p c q).answer p .badArg .none) (h.elsewhere rfl rfl rfl rfl rfl)
          (State.sameBooks_kickPorts _)

theorem State.Kept.event {f : State → State} (hf : (f s).Kept X) : (s.event f).Kept X := by
  unfold State.event
  split
  · exact h
  · exact hf.same (State.sameBooks_kickPorts _)

theorem State.Kept.busEvent {f : State → State} (hf : State.Books X s (f s)) : (s.busEvent f).Kept X :=
  h.event (hf.finish h.toLedger)

/-- A timer of a branch, whose own change leaves the branch's orders. -/
theorem State.Kept.timerEvent (b : BranchId) (t : Nat) {f : Branch → Branch}
    (hf : ∀ d id, (f (s.branch b)).Keeps d id → (s.branch b).Keeps d id) :
    (s.timerEvent b t fun s => s.updBranch b f).Kept X :=
  h.event (((h.same (s.sameBooks_clockTo t)).same (State.sameBooks_updBranch _ b hf)).arbitrate b)

/-- A timer that marks poll-list entries. -/
theorem State.Kept.updPoll (b : BranchId) (d : DropId) (t : Nat) {f : PollEntry → PollEntry}
    (hf : ∀ e, (f e).drop = e.drop ∧ (f e).seg = e.seg) : (s.timerEvent b t fun s => s.updPoll b d f).Kept X :=
  h.timerEvent b t fun _ _ hk => hk.of_poll_map (fun e => by split <;> simp [hf]) rfl (fun _ h => h) fun _ h => h

theorem State.Kept.onOrder (b : BranchId) (d : DropId) {f : State → Order → Nat → State}
    (hf : ∀ o l, (s.branch b).bus = some { call := .entry (.order o), left := l } → State.Books X s (f s o l)) :
    (s.onOrder b d f).Kept X := by
  unfold State.onOrder
  split
  · rename_i o l hb
    split
    · exact h.busEvent (hf o l hb)
    · exact h
  · exact h

theorem State.Kept.borderEvent (k : LinkId) (x : SectorId) (b : Bool) {f : State → State}
    (hf : ∀ {u : State}, State.Books X s u → State.Books X s (f u)) : (s.borderEvent k x b f).Kept X := by
  unfold State.borderEvent
  split
  · exact h
  · exact h.busEvent (hf (h.books.same (s.sameBooks_greet k x)))

/-! ### The rules that close no segment -/

theorem State.Kept.resumeRule : (resumeRule s).state.Kept X := by
  unfold Machine.resumeRule
  repeat' split
  all_goals dsimp only [State.reply]
  all_goals with_reducible first | exact h | exact h.elsewhere rfl rfl rfl rfl rfl

theorem State.Kept.clearFaultRule (n : Nat) : (clearFaultRule n s).state.Kept X := by
  unfold Machine.clearFaultRule
  repeat' split
  all_goals dsimp only [State.reply]
  all_goals with_reducible first | exact h | skip
  refine State.Kept.same ?_ (State.rejudged_judge _ _).sameBooks
  exact h.same (s.sameBooks_updSlot _ fun _ => rfl)

theorem State.Kept.retireAt (n : SlotId) (a : Theta) (f : Phi) (l : List CellId) : (s.retireAt n a f l).Kept X := by
  refine State.Kept.same (s := { s with retired := s.retired.set n (some { theta := a, phi := f, cells := l }) }) ?_
    (State.sameBooks_updSlot _ n fun _ => rfl)
  exact h.elsewhere rfl rfl rfl rfl rfl

theorem State.Kept.retireRule (n : Nat) : (retireRule n s).state.Kept X := by
  unfold Machine.retireRule
  dsimp only
  repeat' split
  all_goals dsimp only [State.reply]
  all_goals with_reducible first | exact h | exact h.retireAt _ _ _ _

theorem State.Kept.unretireAt (n : SlotId) :
    (State.updSlot { s with retired := s.retired.set n none } n fun sl => { sl with state := .parked }).Kept X := by
  refine State.Kept.same (s := { s with retired := s.retired.set n none }) ?_ (State.sameBooks_updSlot _ n fun _ => rfl)
  exact h.elsewhere rfl rfl rfl rfl rfl

theorem State.Kept.unretireRule (n : Nat) : (unretireRule n s).state.Kept X := by
  unfold Machine.unretireRule
  repeat' split
  all_goals dsimp only [State.reply]
  all_goals with_reducible first | exact h | exact (h.unretireAt _).arbitrate _

theorem State.Kept.measureRule (a b c : Nat) (l : List Nat) : (measureRule a b c l s).state.Kept X := by
  unfold Machine.measureRule
  repeat' split
  all_goals dsimp only [State.reply]
  all_goals with_reducible first | exact h | exact (h.books.same (s.sameBooks_placeAt _ _ _ _)).settleEvent h.toLedger

theorem State.Kept.setFootprintRule (a : Nat) (l : List Nat) : (setFootprintRule a l s).state.Kept X := by
  unfold Machine.setFootprintRule
  repeat' split
  all_goals dsimp only [State.reply]
  all_goals with_reducible first
    | exact h
    | exact ((h.books.same (s.sameBooks_placeAt _ _ _ _)).same (State.sameBooks_scanWhen _ _)).settleEvent h.toLedger

theorem State.Kept.streamPositionsRule (a b : Nat) : (streamPositionsRule a b s).state.Kept X := by
  unfold Machine.streamPositionsRule
  repeat' split
  all_goals exact h.elsewhere rfl rfl rfl rfl rfl

theorem State.Kept.streamArmRule (a b : Nat) : (streamArmRule a b s).state.Kept X := by
  unfold Machine.streamArmRule
  split
  all_goals exact h.elsewhere rfl rfl rfl rfl rfl

theorem State.Kept.streamStopRule : (streamStopRule s).state.Kept X := by
  unfold Machine.streamStopRule
  dsimp only
  split
  all_goals exact h.elsewhere rfl rfl rfl rfl rfl

theorem State.Kept.readSenseRule (n : Nat) : (readSenseRule n s).state.Kept X := by
  unfold Machine.readSenseRule
  dsimp only
  repeat' split
  all_goals exact h.elsewhere rfl rfl rfl rfl rfl

theorem State.Kept.clearChangeRule (n : Nat) : (clearChangeRule n s).state.Kept X := by
  unfold Machine.clearChangeRule
  split
  all_goals exact h.elsewhere rfl rfl rfl rfl rfl

theorem State.Kept.setSenseWatchRule (n : Nat) (w : Byte) : (setSenseWatchRule n w s).state.Kept X := by
  unfold Machine.setSenseWatchRule
  split
  all_goals exact h.elsewhere rfl rfl rfl rfl rfl

theorem State.Kept.takeBranchRule (n : Nat) : (takeBranchRule n s).state.Kept X := by
  unfold Machine.takeBranchRule
  repeat' split
  all_goals dsimp only [State.reply, State.deferred]
  all_goals with_reducible first | exact h | skip
  exact (h.same (s.sameBooks_startTake_branch _)).arbitrate _

theorem State.Kept.giveBranchRule (n : Nat) : (giveBranchRule n s).state.Kept X := by
  unfold Machine.giveBranchRule
  repeat' split
  all_goals dsimp only [State.reply]
  all_goals with_reducible first | exact h | skip
  exact ((h.same (s.sameBooks_updBranch _ fun _ _ h => h)).arbitrate _).same (State.sameBooks_causeScan _)

theorem State.Kept.directFrameRule (a b : Nat) (l : List Byte) : (directFrameRule a b l s).state.Kept X := by
  unfold Machine.directFrameRule
  repeat' split
  all_goals dsimp only [State.reply, State.deferred]
  all_goals with_reducible first | exact h | skip
  exact (h.same (s.sameBooks_updBranch _ fun _ _ h => h)).arbitrate _

theorem State.Kept.censusRule : (censusRule s).state.Kept X := by
  unfold Machine.censusRule
  repeat' split
  all_goals dsimp only [State.reply, State.deferred]
  all_goals with_reducible first | exact h | exact (h.same (s.sameBooks_beginCensus _)).runBuses

theorem State.Kept.reclaimBorderRule (n : Nat) : (reclaimBorderRule n s).state.Kept X := by
  unfold Machine.reclaimBorderRule
  repeat' split
  all_goals exact h.elsewhere rfl rfl rfl rfl rfl

theorem State.Kept.queryBatchRule (id : Nat) : (queryBatchRule id s).state.Kept X := by
  unfold Machine.queryBatchRule
  dsimp only
  repeat' split
  all_goals exact h

theorem State.Kept.querySlotRule (n : Nat) : (querySlotRule n s).state.Kept X := by
  unfold Machine.querySlotRule
  split
  all_goals exact h

theorem State.Kept.queryCellRule (n : Nat) : (queryCellRule n s).state.Kept X := by
  unfold Machine.queryCellRule
  split
  all_goals exact h

theorem State.Kept.queryBranchRule (n : Nat) : (queryBranchRule n s).state.Kept X := by
  unfold Machine.queryBranchRule
  split
  all_goals exact h

theorem State.Kept.queryLinkRule (n : Nat) : (queryLinkRule n s).state.Kept X := by
  unfold Machine.queryLinkRule
  split
  all_goals exact h

/-! ### The rules that close segments -/

theorem State.Kept.holdRule : (holdRule s).state.Kept X := by
  unfold Machine.holdRule
  split
  · exact ((booked_books X s).enterHold h.books).finish h.toLedger
  · exact h

theorem State.Kept.stopRule : (stopRule s).state.Kept X := ((booked_books X s).takeStop h.books).finish h.toLedger

end Kept

/-! ### Border frames that grant -/

theorem Booked.takeGrant {J : SlotId → SegId → Prop} {K : SlotId → SegId × Segment → Prop} {P : State → Prop} (hP : Booked J K P)
    {s : State} (h : P s) (k : LinkId) (c : Claim) : P (s.takeGrant k c) := by
  have h' := hP.same ((((s.sameBooks_sendRelease k (s.stillAway k c.cells)).trans (State.sameBooks_endClaim _ k c .released)).trans
    (State.sameBooks_backOff _ c)).trans (State.sameBooks_causeScan _)) h
  unfold State.takeGrant
  dsimp only
  split
  · exact h'
  · split
    · exact h'
    · rename_i id g hu
      split
      · rename_i hg
        have hid : id = c.seg := by
          simp only [Bool.and_eq_true, decide_eq_true_eq] at hg
          exact hg.1.1
        have hj := hP.of_firstUngranted h hu
        subst hid
        refine hP.same (State.sameBooks_causeScan _) (hP.judge (hP.award ?_ hj g) _)
        exact hP.same (s.sameBooks_endClaim k c .granted) h
      · exact h'

theorem Booked.grantFrame {J : SlotId → SegId → Prop} {K : SlotId → SegId × Segment → Prop} {P : State → Prop} (hP : Booked J K P)
    {s : State} (h : P s) (k : LinkId) (n : Byte) : P (State.grantFrame k n s) := by
  unfold State.grantFrame
  split
  · split
    · exact hP.takeGrant h k _
    · exact hP.same (s.sameBooks_sendRelease k _) h
  · exact hP.same (s.sameBooks_sendRelease k _) h

end Sys2Proof.Machine
end


section
/-! SUPPORT. The batch requests keep the agreement of the segment store (R48 to R60): a record is opened, a segment staged, a batch
abandoned, a batch committed; and a trim is chained (R139). -/

namespace Sys2Proof.Machine

/-! ### The segments of a batch -/

section
variable {s t : State}

theorem State.liveCount_congr {p : Segment → Bool} (h : ∀ id, (t.seg id).any p = (s.seg id).any p) :
    t.liveCount p = s.liveCount p := Table.countP_congr h

theorem State.liveCount_pos {p : Segment → Bool} {id : SegId} {g : Segment} (hg : s.seg id = some g) (hp : p g = true) :
    0 < s.liveCount p :=
  List.countP_pos_iff.2 ⟨some g, Table.mem_items.2 ⟨id, hg⟩, by simpa using hp⟩

/-- A batch record is sound when the segments of its batch are the same. -/
theorem State.BatchSound.of_segs {b : Batch} (h : s.BatchSound b)
    (hs : ∀ id g, g.batch = some b.id → (t.seg id = some g ↔ s.seg id = some g)) : t.BatchSound b := by
  refine ⟨fun ho => ?_, fun hc => ?_, h.ended⟩
  · obtain ⟨h1, h2, h3, h4, h5, h6, h7⟩ := h.opened ho
    refine ⟨h1, h2, h3, h4, h5, h6, fun id => (h7 id).trans (exists_congr fun g => ?_)⟩
    constructor
    · rintro ⟨hg, hb, hst⟩
      exact ⟨(hs id g hb).2 hg, hb, hst⟩
    · rintro ⟨hg, hb, hst⟩
      exact ⟨(hs id g hb).1 hg, hb, hst⟩
  · obtain ⟨h1, h2, h3⟩ := h.committed hc
    refine ⟨h1, h2, h3.trans (State.liveCount_congr fun id => ?_)⟩
    rw [Bool.eq_iff_iff, Option.any_eq_true, Option.any_eq_true]
    refine exists_congr fun g => ?_
    rw [decide_eq_true_eq]
    constructor
    · rintro ⟨hg, hb⟩
      exact ⟨(hs id g hb).2 hg, hb⟩
    · rintro ⟨hg, hb⟩
      exact ⟨(hs id g hb).1 hg, hb⟩

end

/-! ### The free list of the accounts -/

theorem State.Accounts.kept {X : SegId → Prop} {s : State} (h : s.Accounts) (hn : s.free.Nodup)
    (hf : ∀ id, id ∈ s.free ↔ s.seg id = none) (hw : s.ChainedWithin X) : s.Kept X := ⟨h.ledger hn hf, hw⟩

/-! ### OPEN_BATCH (R53, R54) -/

section
variable {s : State}

theorem State.earlierEnd_ended {best : Option (Fin 4)} {i j : Fin 4} (hb : ∀ k, best = some k → s.endOrderAt k ≠ none)
    (h : s.earlierEnd best i = some j) : s.endOrderAt j ≠ none := by
  unfold State.earlierEnd at h
  split at h
  · rename_i hi _
    split at h
    · cases h
      rw [hi]
      nofun
    · exact hb j h
  · rename_i hi _
    cases h
    rw [hi]
    nofun
  · exact hb j h

/-- The record reused has ended (R53). -/
theorem State.reusable_ended {j : Fin 4} (h : s.reusable = some j) : s.endOrderAt j ≠ none := by
  have hall : ∀ (l : List (Fin 4)) (best : Option (Fin 4)), (∀ k, best = some k → s.endOrderAt k ≠ none) →
      ∀ k, l.foldl s.earlierEnd best = some k → s.endOrderAt k ≠ none := by
    intro l
    induction l with
    | nil => exact fun _ hb => hb
    | cons i l ih => exact fun best hb => ih _ fun k hk => State.earlierEnd_ended hb hk
  exact hall _ _ (fun _ e => by cases e) j h

theorem State.batchPlace_ended {i : Fin 4} {x : Batch} (h : s.batchPlace = some i) (hx : s.batches.get i = some x) :
    x.endOrder ≠ none := by
  unfold State.batchPlace at h
  split at h
  · rename_i hf
    cases h
    have : (s.batches.get i).isNone = true := List.find?_some (p := fun i => (s.batches.get i).isNone) hf
    rw [hx] at this
    cases this
  · have := State.reusable_ended h
    rw [State.endOrderAt, hx] at this
    exact this

/-- A record that has ended has no segment left (R52, R53). -/
theorem State.Accounts.ended_free (h : s.Accounts) {i : Fin 4} {x : Batch} (hx : s.batches.get i = some x) (he : x.endOrder ≠ none)
    (id : SegId) (g : Segment) (hg : s.seg id = some g) : g.batch ≠ some x.id := by
  intro hb
  have hs := h.batches i x hx
  have hend := hs.ended.1.1 he
  have hno : x.state ≠ .opened := by
    rintro e
    rw [e] at hend
    obtain hend | hend := hend <;> cases hend
  have hp := State.liveCount_pos (p := fun g => decide (g.batch = some x.id)) hg (by simp [hb])
  rw [← (hs.committed hno).2.2, hs.ended.2 hend] at hp
  exact absurd hp (Nat.lt_irrefl 0)

theorem State.BatchSound.fresh {id : Nat} (h : ∀ i g, s.seg i = some g → g.batch ≠ some id) : s.BatchSound (.fresh id) where
  opened _ := ⟨.nil, rfl, rfl, rfl, rfl, rfl, fun i => iff_of_false (List.not_mem_nil) fun ⟨g, hg, hb, _⟩ => h i g hg hb⟩
  committed e := absurd rfl e
  ended := ⟨by simp [Batch.fresh], fun _ => rfl⟩

theorem State.Kept.openRecord {X : SegId → Prop} (h : s.Kept X) {id : Nat} {i : Fin 4} (ho : s.openBatch = none)
    (hid : s.batchOf id = none) (hp : s.batchPlace = some i) :
    State.Kept X { s with batches := s.batches.set i (some (.fresh id)) } := by
  have hA := h.toLedger.accounts
  have hopen := State.openBatch_eq_none.1 ho
  have hno := State.batchOf_eq_none.1 hid
  have hget : ∀ j x, (s.batches.set i (some (Batch.fresh id))).get j = some x →
      (i = j ∧ x = .fresh id) ∨ (i ≠ j ∧ s.batches.get j = some x) := by
    intro j x hx
    by_cases e : i = j
    · subst e
      rw [Table.get_set_self] at hx
      exact .inl ⟨rfl, (Option.some.inj hx).symm⟩
    · rw [Table.get_set_ne _ _ e] at hx
      exact .inr ⟨e, hx⟩
  have hnew : ∀ j g, s.seg j = some g → g.batch ≠ some id := fun j g hg hb => by
    obtain ⟨k, y, hy, hyid, -⟩ := hA.owned j g id hg hb
    exact hno k y hy hyid
  have hacc : State.Accounts { s with batches := s.batches.set i (some (.fresh id)) } := by
    refine ⟨hA.chainOnce, hA.chains, fun j k x y hx hy e => ?_, fun j k x y hx hy ex ey => ?_, fun j x hx => ?_, fun j g b hg hb => ?_,
      hA.unowned, hA.keeps⟩
    · obtain ⟨rfl, rfl⟩ | ⟨-, hx⟩ := hget j x hx
      · obtain ⟨rfl, rfl⟩ | ⟨-, hy⟩ := hget k y hy
        · rfl
        · exact absurd e.symm (hno k y hy)
      · obtain ⟨rfl, rfl⟩ | ⟨-, hy⟩ := hget k y hy
        · exact absurd e (hno j x hx)
        · exact hA.ids j k x y hx hy e
    · obtain ⟨rfl, -⟩ | ⟨-, hx⟩ := hget j x hx
      · obtain ⟨rfl, -⟩ | ⟨-, hy⟩ := hget k y hy
        · rfl
        · exact absurd ey (hopen k y hy)
      · exact absurd ex (hopen j x hx)
    · refine State.BatchSound.of_segs (s := s) ?_ fun _ _ _ => .rfl
      obtain ⟨-, rfl⟩ | ⟨-, hx⟩ := hget j x hx
      · exact .fresh hnew
      · exact hA.batches j x hx
    · obtain ⟨k, y, hy, hyid, hyo⟩ := hA.owned j g b hg hb
      have hik : i ≠ k := by
        rintro rfl
        exact hA.ended_free hy (State.batchPlace_ended hp hy) j g hg (hb.trans (congrArg some hyid.symm))
      exact ⟨k, y, (Table.get_set_ne _ _ hik).trans hy, hyid, hyo⟩
  refine hacc.kept h.freeOnce h.freeRecords fun j g k x hg hx hb hst hc => ?_
  obtain ⟨-, rfl⟩ | ⟨-, hx⟩ := hget k x hx
  · cases hst
  · exact h.within j g k x hg hx hb hst hc

end

/-! ### A record taken from the free list (R48, R55, R139) -/

/-- From `s` to `t` the free record `id` came to hold segment `g`. -/
structure State.Gains (s t : State) (id : SegId) (g : Segment) : Prop where
  was : s.seg id = none
  seg : ∀ i, t.seg i = if id = i then some g else s.seg i

section Gains
variable {s t : State} {id : SegId} {g : Segment} (h : s.Gains t id g)
include h

theorem State.Gains.of_some {x : Segment} {i : SegId} (hx : t.seg i = some x) : (i = id ∧ x = g) ∨ (i ≠ id ∧ s.seg i = some x) := by
  rw [h.seg] at hx
  split at hx
  · rename_i e
    cases hx
    exact .inl ⟨e.symm, rfl⟩
  · rename_i e
    exact .inr ⟨Ne.symm e, hx⟩

theorem State.Gains.to_some {x : Segment} {i : SegId} (hx : s.seg i = some x) : t.seg i = some x := by
  rw [h.seg, if_neg, hx]
  rintro rfl
  rw [h.was] at hx
  cases hx

theorem State.Gains.self : t.seg id = some g := by rw [h.seg, if_pos rfl]

/-- The segments of another batch are as they were. -/
theorem State.Gains.some_iff {x : Segment} {i : SegId} (hb : x.batch ≠ g.batch) : t.seg i = some x ↔ s.seg i = some x := by
  refine ⟨fun hx => ?_, h.to_some⟩
  obtain ⟨-, rfl⟩ | ⟨-, hx⟩ := h.of_some hx
  · exact absurd rfl hb
  · exact hx

theorem State.Gains.free {rest : List SegId} (hl : s.Ledger) (hf : s.free = id :: rest) :
    rest.Nodup ∧ ∀ i, i ∈ rest ↔ t.seg i = none := by
  have hn := hl.freeOnce
  rw [hf, List.nodup_cons] at hn
  refine ⟨hn.2, fun i => ?_⟩
  rw [h.seg]
  by_cases e : id = i
  · subst e
    simp [hn.1]
  · have := hl.freeRecords i
    rw [hf, List.mem_cons] at this
    rw [if_neg e, ← this]
    exact ⟨.inr, fun h => h.resolve_left (Ne.symm e)⟩

end Gains

theorem State.Ledger.gains {s t : State} {id : SegId} {rest : List SegId} {g : Segment} (h : s.Ledger) (hf : s.free = id :: rest)
    (ht : t.pool = s.pool.set id (some g)) : s.Gains t id g where
  was := (h.freeRecords id).1 (by rw [hf]; exact List.mem_cons_self)
  seg i := by rw [State.seg, ht, Table.get_set]; rfl

section
variable {X : SegId → Prop} {s t : State} {id : SegId} {rest : List SegId} (h : s.Kept X) (hf : s.free = id :: rest)
include h hf

/-- A segment of no batch comes to stand at the tail of its slot's chain. -/
theorem State.Kept.chainNew {g : Segment} (hg : s.Gains t id g) (hb : g.batch = none) (hst : g.state ≠ .staged)
    (hr : (s.slot g.slot).chain.length < chainRoom) (hfree : t.free = rest) (hbatches : t.batches = s.batches)
    (hbranches : t.branches = s.branches)
    (hchain : ∀ m, (t.slot m).chain = if g.slot = m then (s.slot m).chain ++ [id] else (s.slot m).chain) : t.Kept X := by
  have hA := h.toLedger.accounts
  have hnew : ∀ m, id ∉ (s.slot m).chain := fun m hm => by
    obtain ⟨x, hx, -⟩ := hA.of_chain hm
    rw [hg.was] at hx
    cases hx
  have hmem : ∀ m i, i ∈ (t.slot m).chain ↔ i ∈ (s.slot m).chain ∨ (g.slot = m ∧ i = id) := by
    intro m i
    rw [hchain]
    split
    · rename_i e
      simp [e]
    · rename_i e
      simp [e]
  have hacc : t.Accounts := by
    refine ⟨fun m => ?_, fun m i => ?_, by rw [State.IdsOnce, hbatches]; exact hA.ids, by rw [hbatches]; exact hA.openOnce,
      fun j x hx => ?_, fun j x b hx hxb => ?_, fun j x hx hxb => ?_, fun b d i hk => ?_⟩
    · rw [hchain]
      split
      · rename_i e
        subst e
        refine ⟨List.nodup_append'.2 ⟨(hA.chainOnce _).1, List.nodup_singleton _, ?_⟩, ?_⟩
        · intro i hi hi'
          rw [List.mem_singleton] at hi'
          subst hi'
          exact hnew _ hi
        · rw [List.length_append, List.length_singleton]
          exact hr
      · exact hA.chainOnce m
    · rw [hmem]
      constructor
      · rintro (hi | ⟨rfl, rfl⟩)
        · obtain ⟨x, hx, hxs⟩ := hA.of_chain hi
          exact ⟨x, hg.to_some hx, hxs⟩
        · exact ⟨g, hg.self, rfl, hst⟩
      · rintro ⟨x, hx, hxs, hxst⟩
        obtain ⟨rfl, rfl⟩ | ⟨-, hx⟩ := hg.of_some hx
        · exact .inr ⟨hxs, rfl⟩
        · exact .inl ((hA.chains m i).2 ⟨x, hx, hxs, hxst⟩)
    · rw [hbatches] at hx
      exact (hA.batches j x hx).of_segs fun i y hy => hg.some_iff (by rw [hy, hb]; nofun)
    · obtain ⟨rfl, rfl⟩ | ⟨-, hx⟩ := hg.of_some hx
      · rw [hb] at hxb
        cases hxb
      · rw [hbatches]
        exact hA.owned j x b hx hxb
    · obtain ⟨rfl, rfl⟩ | ⟨-, hx⟩ := hg.of_some hx
      · exact hst
      · exact hA.unowned j x hx hxb
    · rw [State.branch, hbranches] at hk
      exact (hmem _ _).2 (.inl (hA.keeps b d i hk))
  obtain ⟨hn, hm⟩ := hg.free h.toLedger hf
  refine hacc.kept (by rw [hfree]; exact hn) (by rw [hfree]; exact hm) fun j x k y hx hy hxb hyst hc => ?_
  obtain ⟨rfl, rfl⟩ | ⟨-, hx⟩ := hg.of_some hx
  · rw [hb] at hxb
    cases hxb
  · rw [hbatches] at hy
    exact h.within j x k y hx hy hxb hyst hc

/-- An accepted trim (R138, R139). -/
theorem State.Kept.addTrim {n : SlotId} (body : SegBody) (tag : Nat) (hr : (s.slot n).chain.length < chainRoom) :
    (s.addTrim n body tag id rest).Kept X := by
  refine State.Kept.same ?_ (State.rejudged_judge _ n).sameBooks
  refine h.chainNew hf (h.toLedger.gains hf rfl) rfl nofun hr rfl rfl rfl fun m => ?_
  by_cases e : n = m
  · subst e
    rw [State.slot_updSlot_self]
    exact (if_pos rfl).symm
  · rw [State.slot_updSlot_ne _ _ e]
    exact (if_neg e).symm

/-- A segment is staged in the open batch (R55). -/
theorem State.Kept.stage {n : SlotId} {b : Batch} (ho : s.openBatch = some b) (body : SegBody) (tag : Nat) :
    (s.stage b n body tag id rest).Kept X := by
  have hA := h.toLedger.accounts
  obtain ⟨⟨p, hp⟩, hopen⟩ := State.openBatch_mem ho
  have hg : s.Gains (s.stage b n body tag id rest) id ⟨n, body, tag, some b.id, .staged, false⟩ := h.toLedger.gains hf rfl
  have hget : ∀ j, (s.stage b n body tag id rest).batches.get j = (s.batches.get j).map fun r =>
      if r.id = b.id then { r with loaded := r.loaded + 1, staging := r.staging ++ [id] } else r := fun j => Table.get_map _ _ _
  have hof : ∀ j y, (s.stage b n body tag id rest).batches.get j = some y →
      (j = p ∧ y = { b with loaded := b.loaded + 1, staging := b.staging ++ [id] }) ∨ (y.id ≠ b.id ∧ s.batches.get j = some y) := by
    intro j y hy
    rw [hget, Option.map_eq_some_iff] at hy
    obtain ⟨x, hx, rfl⟩ := hy
    by_cases e : x.id = b.id
    · have hj := hA.ids j p x b hx hp e
      subst hj
      rw [hp] at hx
      cases hx
      exact .inl ⟨rfl, if_pos rfl⟩
    · rw [if_neg e]
      exact .inr ⟨e, hx⟩
  have hframe : ∀ j y, (s.stage b n body tag id rest).batches.get j = some y →
      ∃ x, s.batches.get j = some x ∧ y.id = x.id ∧ y.state = x.state := by
    intro j y hy
    obtain ⟨rfl, rfl⟩ | ⟨-, hy⟩ := hof j y hy
    · exact ⟨b, hp, rfl, rfl⟩
    · exact ⟨y, hy, rfl, rfl⟩
  have hacc : (s.stage b n body tag id rest).Accounts := by
    refine ⟨hA.chainOnce, fun m i => (hA.chains m i).trans ?_, fun j k x y hx hy e => ?_, fun j k x y hx hy ex ey => ?_,
      fun j y hy => ?_, fun j x c hx hxc => ?_, fun j x hx hxb => ?_, hA.keeps⟩
    · constructor
      · rintro ⟨x, hx, hxs⟩
        exact ⟨x, hg.to_some hx, hxs⟩
      · rintro ⟨x, hx, hxs, hst⟩
        obtain ⟨-, rfl⟩ | ⟨-, hx⟩ := hg.of_some hx
        · exact absurd rfl hst
        · exact ⟨x, hx, hxs, hst⟩
    · obtain ⟨x', hx', ex, -⟩ := hframe j x hx
      obtain ⟨y', hy', ey, -⟩ := hframe k y hy
      exact hA.ids j k x' y' hx' hy' (ex.symm.trans (e.trans ey))
    · obtain ⟨x', hx', -, ex'⟩ := hframe j x hx
      obtain ⟨y', hy', -, ey'⟩ := hframe k y hy
      exact hA.openOnce j k x' y' hx' hy' (ex'.symm.trans ex) (ey'.symm.trans ey)
    · obtain ⟨rfl, rfl⟩ | ⟨hne, hy⟩ := hof j y hy
      · obtain ⟨h1, h2, h3, h4, h5, h6, h7⟩ := (hA.batches j b hp).opened hopen
        have hnew : id ∉ b.staging := fun hm => by
          obtain ⟨x, hx, -⟩ := (h7 id).1 hm
          rw [hg.was] at hx
          cases hx
        refine ⟨fun _ => ⟨?_, ?_, h3, h4, h5, h6, fun i => ?_⟩, fun e => absurd hopen e, (hA.batches j b hp).ended⟩
        · rw [← List.concat_eq_append]
          exact List.Nodup.concat hnew h1
        · rw [List.length_append, List.length_singleton, ← h2]
        · rw [List.mem_append, List.mem_singleton, h7]
          constructor
          · rintro (⟨x, hx, hxs⟩ | rfl)
            · exact ⟨x, hg.to_some hx, hxs⟩
            · exact ⟨_, hg.self, rfl, rfl⟩
          · rintro ⟨x, hx, hxs⟩
            obtain ⟨rfl, -⟩ | ⟨-, hx⟩ := hg.of_some hx
            · exact .inr rfl
            · exact .inl ⟨x, hx, hxs⟩
      · refine (hA.batches j y hy).of_segs fun i x hx => hg.some_iff fun e => ?_
        rw [hx] at e
        exact hne (Option.some.inj e)
    · obtain ⟨-, rfl⟩ | ⟨-, hx⟩ := hg.of_some hx
      · cases hxc
        exact ⟨p, _, by rw [hget, hp]; rfl, by simp, by simp [hopen]⟩
      · obtain ⟨k, y, hy, hyc, hyo⟩ := hA.owned j x c hx hxc
        have hy' := hget k
        rw [hy] at hy'
        obtain ⟨z, hz, e1, e2⟩ := hframe k _ hy'
        rw [hy] at hz
        cases hz
        exact ⟨k, _, hy', e1.trans hyc, by rw [e2]; exact hyo⟩
    · obtain ⟨-, rfl⟩ | ⟨-, hx⟩ := hg.of_some hx
      · cases hxb
      · exact hA.unowned j x hx hxb
  obtain ⟨hn, hm⟩ := hg.free h.toLedger hf
  refine hacc.kept hn hm fun j x k y hx hy hxb hyst hc => ?_
  obtain ⟨-, rfl⟩ | ⟨-, hx⟩ := hg.of_some hx
  · cases hc
  · obtain ⟨z, hz, e1, e2⟩ := hframe k y hy
    exact h.within j x k z hx hz (hxb.trans (congrArg some e1)) (e2.symm.trans hyst) hc

end

end Sys2Proof.Machine
end


section
/-! SUPPORT. A batch abandoned and a batch committed (R57 to R60) keep the agreement of the segment store. -/

namespace Sys2Proof.Machine

/-! ### An abandoned batch (R57) -/

section
variable {X : SegId → Prop} {s : State} (h : s.Kept X) {b : Batch} (ho : s.openBatch = some b)
include h ho

/-- The staging list of the OPEN batch (R51). -/
theorem State.Kept.staging : b.staging.Nodup ∧ b.loaded = b.staging.length ∧ b.done = 0 ∧ b.failed = 0 ∧ b.skipped = 0 ∧
    ∀ id, id ∈ b.staging ↔ ∃ g, s.seg id = some g ∧ g.batch = some b.id := by
  obtain ⟨⟨p, hp⟩, hopen⟩ := State.openBatch_mem ho
  obtain ⟨h1, h2, -, h4, h5, h6, h7⟩ := (h.batches p b hp).opened hopen
  refine ⟨h1, h2, h4, h5, h6, fun id => (h7 id).trans (exists_congr fun g => ?_)⟩
  exact ⟨fun ⟨hg, hb, _⟩ => ⟨hg, hb⟩, fun ⟨hg, hb⟩ => ⟨hg, hb, (h.toLedger.accounts.owner hg hp hb).2 hopen⟩⟩

theorem State.Kept.not_staging {n : SlotId} {id : SegId} (hid : id ∈ (s.slot n).chain) : id ∉ b.staging := by
  obtain ⟨⟨p, hp⟩, hopen⟩ := State.openBatch_mem ho
  intro hm
  obtain ⟨g, hg, hb⟩ := ((h.staging ho).2.2.2.2.2 id).1 hm
  obtain ⟨x, hx, -, hst⟩ := (h.chains n id).1 hid
  rw [hg] at hx
  cases hx
  exact hst ((h.toLedger.accounts.owner hg hp hb).2 hopen)

theorem State.Kept.abandon : (s.abandon b).Kept X := by
  have hA := h.toLedger.accounts
  obtain ⟨⟨p, hp⟩, hopen⟩ := State.openBatch_mem ho
  obtain ⟨hnodup, -, -, -, -, hmem⟩ := h.staging ho
  have hseg : ∀ i, (s.abandon b).seg i = if i ∈ b.staging then none else s.seg i :=
    fun i => Table.get_foldl_set_none b.staging s.pool i
  have hfree : (s.abandon b).free = b.staging.reverse ++ s.free := foldl_cons_eq_reverse_append _ _
  have hget : ∀ j y, (s.abandon b).batches.get j = some y ↔ s.batches.get j = some y ∧ y.id ≠ b.id := by
    intro j y
    simp only [State.abandon, Table.get_map]
    cases s.batches.get j with
    | none => simp
    | some x =>
      by_cases e : x.id = b.id
      · simp only [e, if_true, reduceCtorEq, false_iff, not_and, not_not]
        rintro he
        cases he
        exact e
      · simp only [e, if_false, Option.some.injEq]
        exact ⟨fun he => ⟨he, by rw [← he]; exact e⟩, fun he => he.1⟩
  have hof : ∀ i g, (s.abandon b).seg i = some g ↔ s.seg i = some g ∧ g.batch ≠ some b.id := by
    intro i g
    rw [hseg]
    split
    · rename_i hi
      obtain ⟨x, hx, hb⟩ := (hmem i).1 hi
      refine iff_of_false nofun fun ⟨hg, hne⟩ => hne ?_
      rw [hx] at hg
      cases hg
      exact hb
    · rename_i hi
      exact ⟨fun hg => ⟨hg, fun hb => hi ((hmem i).2 ⟨g, hg, hb⟩)⟩, fun hg => hg.1⟩
  have hacc : (s.abandon b).Accounts := by
    refine ⟨hA.chainOnce, fun n i => (hA.chains n i).trans (exists_congr fun g => ?_), fun j k x y hx hy => ?_, fun j k x y hx hy => ?_,
      fun j y hy => ?_, fun i g c hg hb => ?_, fun i g hg => hA.unowned i g ((hof i g).1 hg).1, hA.keeps⟩
    · constructor
      · rintro ⟨hg, hs, hst⟩
        exact ⟨(hof i g).2 ⟨hg, fun hb => hst ((hA.owner hg hp hb).2 hopen)⟩, hs, hst⟩
      · rintro ⟨hg, hs, hst⟩
        exact ⟨((hof i g).1 hg).1, hs, hst⟩
    · exact hA.ids j k x y ((hget j x).1 hx).1 ((hget k y).1 hy).1
    · exact hA.openOnce j k x y ((hget j x).1 hx).1 ((hget k y).1 hy).1
    · obtain ⟨hy, hne⟩ := (hget j y).1 hy
      refine (hA.batches j y hy).of_segs fun i g hg => (hof i g).trans ⟨fun he => he.1, fun he => ⟨he, fun e => ?_⟩⟩
      rw [hg] at e
      exact hne (Option.some.inj e)
    · obtain ⟨hg, hne⟩ := (hof i g).1 hg
      obtain ⟨j, y, hy, hyc, hyo⟩ := hA.owned i g c hg hb
      refine ⟨j, y, (hget j y).2 ⟨hy, fun e => hne ?_⟩, hyc, hyo⟩
      rw [hb, ← hyc, e]
  refine hacc.kept ?_ (fun i => ?_) fun i g j y hg hy => h.within i g j y ((hof i g).1 hg).1 ((hget j y).1 hy).1
  · rw [hfree]
    refine List.nodup_append'.2 ⟨List.nodup_reverse.2 hnodup, h.freeOnce, fun i h1 h2 => ?_⟩
    obtain ⟨g, hg, -⟩ := (hmem i).1 (List.mem_reverse.1 h1)
    rw [(h.freeRecords i).1 h2] at hg
    cases hg
  · rw [hfree, List.mem_append, List.mem_reverse, hseg, h.freeRecords]
    split
    · rename_i hi
      exact iff_of_true (.inl hi) rfl
    · rename_i hi
      exact ⟨fun e => e.resolve_left hi, .inr⟩

end

section
variable {X : SegId → Prop} {s : State} (h : s.Kept X)
include h

theorem State.Kept.sequenceViolation : s.sequenceViolation.Kept X := by
  cases ho : s.openBatch with
  | none =>
    rw [State.sequenceViolation_none ho]
    exact h.elsewhere rfl rfl rfl rfl rfl
  | some b =>
    rw [State.sequenceViolation_open ho]
    exact (h.abandon ho).elsewhere rfl rfl rfl rfl rfl

end

/-! ### The staged segments are chained (R59) -/

/-- From `s` to `t` the segments of a list were put at the tails of their slots' chains, CHAINED. -/
structure State.Chains (s t : State) (l : List SegId) : Prop where
  rest : t = { s with slots := t.slots, pool := t.pool }
  seg : ∀ i, t.seg i = if i ∈ l then (s.seg i).map fun g => { g with state := .chained } else s.seg i
  slot : ∀ n, t.slot n = { s.slot n with
    chain := (s.slot n).chain ++ l.filter fun id => (s.seg id).any fun g => decide (g.slot = n) }

theorem State.chains_chainStaged (s : State) (id : SegId) : s.Chains (s.chainStaged id) [id] := by
  cases hg : s.seg id with
  | none =>
    have e : s.chainStaged id = s := by simp [State.chainStaged, hg]
    rw [e]
    refine ⟨rfl, fun i => ?_, fun n => by simp [hg]⟩
    by_cases hi : i = id
    · simp [hi, hg]
    · simp [hi]
  | some g =>
    have e : s.chainStaged id = (s.updSeg id fun g => { g with state := .chained }).updSlot g.slot fun sl =>
        { sl with chain := sl.chain ++ [id] } := by simp [State.chainStaged, hg]
    rw [e]
    refine ⟨rfl, fun i => ?_, fun n => ?_⟩
    · simp only [List.mem_singleton]
      split
      · rename_i hi
        subst hi
        exact State.seg_updSeg_self _ _ _
      · rename_i hi
        exact State.seg_updSeg_ne _ _ (Ne.symm hi)
    · have hf : ([id].filter fun id => (s.seg id).any fun g => decide (g.slot = n)) = if g.slot = n then [id] else [] := by
        simp [List.filter_singleton, hg, Bool.cond_decide]
      rw [hf]
      split
      · rename_i e
        subst e
        exact State.slot_updSlot_self _ _ _
      · rename_i e
        rw [State.slot_updSlot_ne _ _ e, List.append_nil]
        rfl

theorem State.Chains.trans {s t u : State} {a b : List SegId} (h : s.Chains t a) (k : t.Chains u b) : s.Chains u (a ++ b) where
  rest := k.rest.trans (congrArg (fun v : State => { v with slots := u.slots, pool := u.pool }) h.rest)
  seg i := by
    rw [k.seg, h.seg]
    simp only [List.mem_append]
    by_cases ha : i ∈ a
    · by_cases hb : i ∈ b
      · simp only [ha, hb, if_true, or_self, Option.map_map]
        rfl
      · simp [ha, hb]
    · simp [ha]
  slot n := by
    have hany : ∀ id, ((t.seg id).any fun g => decide (g.slot = n)) = (s.seg id).any fun g => decide (g.slot = n) := by
      intro id
      rw [h.seg]
      split
      · rw [Option.any_map]
      · rfl
    rw [k.slot, h.slot, List.filter_append]
    simp only [hany, List.append_assoc]

theorem State.chains_foldl (s : State) (l : List SegId) : s.Chains (l.foldl State.chainStaged s) l := by
  induction l generalizing s with
  | nil => exact ⟨rfl, fun i => by simp, fun n => by simp⟩
  | cons id l ih => exact (s.chains_chainStaged id).trans (ih _)

/-- A slot's staged count is the length of what its chain gains (R51, R59). -/
theorem State.stagedFor_eq (s : State) (b : Batch) (n : SlotId) :
    s.stagedFor b n = (b.staging.filter fun id => (s.seg id).any fun g => decide (g.slot = n)).length := by
  unfold State.stagedFor
  congr 2
  funext id
  cases s.seg id <;> rfl

/-! ### A committed batch (R59, R60) -/

theorem State.endBatches_pool (s : State) : s.endBatches.pool = s.pool := by
  obtain ⟨_, _, _, _, _, e⟩ := s.endBatches_eq
  rw [e]

/-- The batch that a COMMIT_BATCH sets RUNNING, before it is judged whether anything of it is left to do. -/
def State.setRunning (s : State) (b : Batch) : State :=
  (b.staging.foldl State.chainStaged s).updBatch b.id fun r => { r with state := .running, pending := r.loaded, staging := [] }

theorem State.commit_eq (s : State) (b : Batch) : s.commit b = (s.setRunning b).judgeAll.endBatches := rfl

theorem State.IdsOnce.get_setRunning {s : State} (h : s.IdsOnce) {b : Batch} (ho : s.openBatch = some b) (j : Fin 4) (y : Batch) :
    (s.setRunning b).batches.get j = some y ↔
      (s.batches.get j = some b ∧ y = { b with state := .running, pending := b.loaded, staging := [] }) ∨
        (s.batches.get j = some y ∧ y.id ≠ b.id) := by
  obtain ⟨⟨p, hp⟩, -⟩ := State.openBatch_mem ho
  have hb : (b.staging.foldl State.chainStaged s).batches = s.batches := by rw [(s.chains_foldl b.staging).rest]
  rw [State.setRunning, State.updBatch, Table.get_map, hb, Option.map_eq_some_iff]
  constructor
  · rintro ⟨x, hx, rfl⟩
    by_cases e : x.id = b.id
    · have hj := h j p x b hx hp e
      subst hj
      rw [hp] at hx
      cases hx
      exact .inl ⟨hp, if_pos rfl⟩
    · rw [if_neg e]
      exact .inr ⟨hx, e⟩
  · rintro (⟨hx, rfl⟩ | ⟨hx, e⟩)
    · exact ⟨b, hx, if_pos rfl⟩
    · exact ⟨y, hx, if_neg e⟩

theorem State.IdsOnce.setRunning {s : State} (h : s.IdsOnce) {b : Batch} (ho : s.openBatch = some b) : (s.setRunning b).IdsOnce := by
  intro j k x y hx hy e
  obtain ⟨hj, rfl⟩ | ⟨hj, hxb⟩ := (h.get_setRunning ho j x).1 hx
  · obtain ⟨hk, rfl⟩ | ⟨hk, hyb⟩ := (h.get_setRunning ho k y).1 hy
    · exact h j k b b hj hk rfl
    · exact absurd e.symm hyb
  · obtain ⟨hk, rfl⟩ | ⟨hk, hyb⟩ := (h.get_setRunning ho k y).1 hy
    · exact absurd e hxb
    · exact h j k x y hj hk e

section
variable {X : SegId → Prop} {s : State} (h : s.Kept X) {b : Batch} (ho : s.openBatch = some b)
include h ho

/-- A staged segment is CHAINED, every other one as it was. -/
theorem State.Kept.seg_setRunning (i : SegId) (x : Segment) : (s.setRunning b).seg i = some x ↔
    (s.seg i = some x ∧ x.batch ≠ some b.id) ∨ ∃ g, s.seg i = some g ∧ g.batch = some b.id ∧ x = { g with state := .chained } := by
  have hmem := (h.staging ho).2.2.2.2.2
  have hs : (s.setRunning b).seg i = (b.staging.foldl State.chainStaged s).seg i := rfl
  rw [hs, (s.chains_foldl b.staging).seg]
  split
  · rename_i hi
    obtain ⟨y, hy, hyb⟩ := (hmem i).1 hi
    rw [hy, Option.map_some, Option.some.injEq]
    constructor
    · rintro rfl
      exact .inr ⟨y, rfl, hyb, rfl⟩
    · rintro (⟨hx, hne⟩ | ⟨g, hg, -, rfl⟩)
      · cases hx
        exact absurd hyb hne
      · cases hg
        rfl
  · rename_i hi
    constructor
    · exact fun hx => .inl ⟨hx, fun hb => hi ((hmem i).2 ⟨x, hx, hb⟩)⟩
    · rintro (⟨hx, -⟩ | ⟨g, hg, hb, -⟩)
      · exact hx
      · exact absurd ((hmem i).2 ⟨g, hg, hb⟩) hi

theorem State.Kept.mem_setRunning (n : SlotId) (i : SegId) : i ∈ ((s.setRunning b).slot n).chain ↔
    i ∈ (s.slot n).chain ∨ ∃ g, s.seg i = some g ∧ g.batch = some b.id ∧ g.slot = n := by
  have hs : (s.setRunning b).slot n = (b.staging.foldl State.chainStaged s).slot n := rfl
  rw [hs, (s.chains_foldl b.staging).slot]
  simp only [List.mem_append, List.mem_filter, (h.staging ho).2.2.2.2.2, Option.any_eq_true, decide_eq_true_eq]
  refine or_congr_right ⟨?_, ?_⟩
  · rintro ⟨⟨g, hg, hb⟩, x, hx, hn⟩
    rw [hg] at hx
    cases hx
    exact ⟨g, hg, hb, hn⟩
  · rintro ⟨g, hg, hb, hn⟩
    exact ⟨⟨g, hg, hb⟩, g, hg, hn⟩

/-- Every segment of the batch is pending when it is set RUNNING (R52, R59). -/
theorem State.Kept.batchSound_setRunning :
    (s.setRunning b).BatchSound { b with state := .running, pending := b.loaded, staging := [] } := by
  obtain ⟨⟨p, hp⟩, hopen⟩ := State.openBatch_mem ho
  obtain ⟨hn, hl, hd, hf, hs, hmem⟩ := h.staging ho
  have hend := (h.batches p b hp).ended.1
  rw [hopen] at hend
  refine ⟨nofun, fun _ => ⟨rfl, ?_, ?_⟩, by simpa using hend, by simp⟩
  · show b.loaded = b.loaded + b.done + b.failed + b.skipped
    omega
  · rw [hl]
    refine (Table.countP_eq_length hn fun i => ?_).symm
    show i ∈ b.staging ↔ Option.any _ ((s.setRunning b).seg i) = true
    rw [hmem, Option.any_eq_true]
    constructor
    · rintro ⟨g, hg, hb⟩
      exact ⟨_, (h.seg_setRunning ho i _).2 (.inr ⟨g, hg, hb, rfl⟩), by simpa using hb⟩
    · rintro ⟨x, hx, hb⟩
      obtain ⟨-, hne⟩ | ⟨g, hg, hgb, -⟩ := (h.seg_setRunning ho i x).1 hx
      · exact absurd (by simpa using hb) hne
      · exact ⟨g, hg, hgb⟩

theorem State.Kept.accounts_setRunning
    (hroom : ∀ n, 0 < s.stagedFor b n → s.stagedFor b n + (s.slot n).chain.length ≤ chainRoom) : (s.setRunning b).Accounts := by
  have hA := h.toLedger.accounts
  obtain ⟨⟨p, hp⟩, hopen⟩ := State.openBatch_mem ho
  have hmem := (h.staging ho).2.2.2.2.2
  have hget := hA.ids.get_setRunning ho
  have hseg := h.seg_setRunning ho
  have hslot : ∀ n, (s.setRunning b).slot n = (b.staging.foldl State.chainStaged s).slot n := fun _ => rfl
  refine ⟨fun n => ⟨?_, ?_⟩, fun n i => ?_, fun j k x y hx hy e => ?_, fun j k x y hx hy ex ey => ?_, fun j y hy => ?_,
    fun i x c hx hxc => ?_, fun i x hx hxb => ?_, fun c d i hk => ?_⟩
  · rw [hslot, (s.chains_foldl b.staging).slot]
    refine List.nodup_append'.2 ⟨(hA.chainOnce n).1, (h.staging ho).1.filter _, fun i h1 h2 => ?_⟩
    exact h.not_staging ho h1 (List.mem_filter.1 h2).1
  · rw [hslot, (s.chains_foldl b.staging).slot, List.length_append, ← s.stagedFor_eq b n]
    have := hroom n
    have := (hA.chainOnce n).2
    omega
  · rw [h.mem_setRunning ho, hA.chains]
    constructor
    · rintro (⟨g, hg, hs, hst⟩ | ⟨g, hg, hb, hs⟩)
      · exact ⟨g, (hseg i g).2 (.inl ⟨hg, fun hb => hst ((hA.owner hg hp hb).2 hopen)⟩), hs, hst⟩
      · exact ⟨_, (hseg i _).2 (.inr ⟨g, hg, hb, rfl⟩), hs, nofun⟩
    · rintro ⟨x, hx, hs, hst⟩
      obtain ⟨hx, -⟩ | ⟨g, hg, hb, rfl⟩ := (hseg i x).1 hx
      · exact .inl ⟨x, hx, hs, hst⟩
      · exact .inr ⟨g, hg, hb, hs⟩
  · exact hA.ids.setRunning ho j k x y hx hy e
  · obtain ⟨-, rfl⟩ | ⟨hj, -⟩ := (hget j x).1 hx
    · cases ex
    · obtain ⟨-, rfl⟩ | ⟨hk, -⟩ := (hget k y).1 hy
      · cases ey
      · exact hA.openOnce j k x y hj hk ex ey
  · obtain ⟨-, rfl⟩ | ⟨hj, hne⟩ := (hget j y).1 hy
    · exact h.batchSound_setRunning ho
    · refine (hA.batches j y hj).of_segs fun i x hx => (hseg i x).trans ⟨?_, fun hxs => .inl ⟨hxs, fun hb => ?_⟩⟩
      · rintro (⟨hxs, -⟩ | ⟨g, -, hb, rfl⟩)
        · exact hxs
        · exact absurd (Option.some.inj (hx.symm.trans hb)) hne
      · exact hne (Option.some.inj (hx.symm.trans hb))
  · obtain ⟨hxs, hne⟩ | ⟨g, hg, hb, rfl⟩ := (hseg i x).1 hx
    · obtain ⟨j, y, hy, hyc, hyo⟩ := hA.owned i x c hxs hxc
      exact ⟨j, y, (hget j y).2 (.inr ⟨hy, fun e => hne (hxc.trans (congrArg some (hyc.symm.trans e)))⟩), hyc, hyo⟩
    · refine ⟨p, _, (hget p _).2 (.inl ⟨hp, rfl⟩), Option.some.inj (hb.symm.trans hxc), by simp⟩
  · obtain ⟨hxs, -⟩ | ⟨g, hg, hb, rfl⟩ := (hseg i x).1 hx
    · exact hA.unowned i x hxs hxb
    · nofun
  · have hb : (s.setRunning b).branches = s.branches := by
      show (b.staging.foldl State.chainStaged s).branches = s.branches
      rw [(s.chains_foldl b.staging).rest]
    rw [State.branch, hb] at hk
    exact (h.mem_setRunning ho _ _).2 (.inl (hA.keeps c d i hk))

theorem State.Kept.setRunning
    (hroom : ∀ n, 0 < s.stagedFor b n → s.stagedFor b n + (s.slot n).chain.length ≤ chainRoom) : (s.setRunning b).Kept X := by
  have hfree : (s.setRunning b).free = s.free := by
    show (b.staging.foldl State.chainStaged s).free = s.free
    rw [(s.chains_foldl b.staging).rest]
  refine (h.accounts_setRunning ho hroom).kept (by rw [hfree]; exact h.freeOnce) (fun i => ?_) fun i x j y hx hy hxb hyst hc => ?_
  · rw [hfree, h.freeRecords]
    have hs : (s.setRunning b).seg i = (b.staging.foldl State.chainStaged s).seg i := rfl
    rw [hs, (s.chains_foldl b.staging).seg]
    split
    · rw [Option.map_eq_none_iff]
    · rfl
  · obtain ⟨-, rfl⟩ | ⟨hy, hne⟩ := (h.toLedger.accounts.ids.get_setRunning ho j y).1 hy
    · cases hyst
    · obtain ⟨hx, -⟩ | ⟨g, -, hb, rfl⟩ := (h.seg_setRunning ho i x).1 hx
      · exact h.within i x j y hx hy hxb hyst hc
      · exact absurd (Option.some.inj (hxb.symm.trans hb)) hne

theorem State.Kept.commit
    (hroom : ∀ n, 0 < s.stagedFor b n → s.stagedFor b n + (s.slot n).chain.length ≤ chainRoom) : (s.commit b).Kept X := by
  have hj := (h.setRunning ho hroom).same (State.rejudged_judgeAll _).sameBooks
  rw [State.commit_eq]
  refine hj.books.endBatches.kept hj.toLedger fun i hi => ?_
  rwa [State.seg, State.endBatches_pool]

end

/-! ### The rules of the batches -/

section
variable {X : SegId → Prop} {s : State} (h : s.Kept X)
include h

theorem State.Kept.openBatchRule (id : Nat) : (openBatchRule id s).state.Kept X := by
  unfold Machine.openBatchRule
  split
  · exact h
  · split
    · exact h.sequenceViolation
    · rename_i ho
      split
      · exact h
      · split
        · exact h
        · rename_i hid
          split
          · exact h
          · rename_i hp
            exact h.openRecord (by simpa using ho) (by simpa using hid) hp

theorem State.Kept.loadSegmentRule (d : Descriptor) : (loadSegmentRule d s).state.Kept X := by
  unfold Machine.loadSegmentRule
  split
  · exact h
  · split
    · exact h.sequenceViolation
    · rename_i ho
      repeat' split
      all_goals dsimp only [State.reply, State.replyWith]
      all_goals with_reducible first | exact h | skip
      exact h.stage (by assumption) ho _ _

theorem State.Kept.cancelOpenRule : (cancelOpenRule s).state.Kept X := by
  unfold Machine.cancelOpenRule
  split
  · rename_i ho
    exact h.abandon ho
  · exact h

theorem State.Kept.loadTrimRule (d : Descriptor) : (loadTrimRule d s).state.Kept X := by
  unfold Machine.loadTrimRule
  repeat' split
  all_goals dsimp only [State.reply, State.replyWith]
  all_goals with_reducible first | exact h | skip
  exact h.addTrim (by assumption) _ _ (Nat.lt_of_not_le (by assumption))

omit h in
/-- No slot's chain is too short of room for its staged segments (R58). -/
theorem State.crowdedStaged_room {b : Batch} (hc : s.crowdedStaged b = none) {n : SlotId} (hn : 0 < s.stagedFor b n) :
    s.stagedFor b n + (s.slot n).chain.length ≤ chainRoom := by
  have hnot := List.find?_eq_none.1 hc n (List.mem_finRange n)
  simp only [hn, decide_true, Bool.true_and, decide_eq_true_eq] at hnot
  exact Nat.le_of_not_lt hnot

theorem State.Kept.commitBatchRule (id : Nat) : (commitBatchRule id s).state.Kept X := by
  unfold Machine.commitBatchRule
  split
  · exact h
  · split
    · exact h.sequenceViolation
    · rename_i b ho
      split
      · exact h.sequenceViolation
      · split
        · exact h
        · exact h
        · rename_i hc
          dsimp only [State.reply]
          refine h.commit ho fun n hn => ?_
          exact State.crowdedStaged_room hc hn

end

end Sys2Proof.Machine
end


section
/-! SUPPORT. What an abort leaves of a batch in the chains (R61, R62). -/

namespace Sys2Proof.Machine

/-! ### Records found by their id -/

/-- Records that change and keep their ids are found as before. -/
theorem State.batchOf_map {s t : State} {f : Batch → Batch} (hf : ∀ b, (f b).id = b.id)
    (h : ∀ i, t.batches.get i = (s.batches.get i).map f) (id : Nat) : t.batchOf id = (s.batchOf id).map f := by
  have hitems : t.batches.items = s.batches.items.map (Option.map f) := by
    rw [Table.items_eq, Table.items_eq, List.map_map]
    exact List.map_congr_left fun i _ => h i
  have hrec : (t.batches.items.filterMap fun b => b) = (s.batches.items.filterMap fun b => b).map f := by
    rw [hitems, List.filterMap_map, List.map_filterMap]
    rfl
  rw [State.batchOf, State.batchOf, hrec, List.find?_map]
  simp only [Function.comp_def, hf]

theorem State.batchOf_of_eq {s t : State} (h : t.batches = s.batches) (id : Nat) : t.batchOf id = s.batchOf id := by
  rw [State.batchOf, State.batchOf, h]

theorem State.Closes.batchOf {s t : State} {id : SegId} {g : Segment} {o : SegOutcome} (h : s.Closes t id g o) (n : Nat) :
    t.batchOf n = (s.batchOf n).map fun b => if g.batch = some b.id then b.count o else b := by
  refine State.batchOf_map (fun b => ?_) h.batches n
  split
  · exact (b.count_frame o).1
  · rfl

theorem State.batchOf_updBatch {s : State} {id : Nat} {b : Batch} (h : s.batchOf id = some b) {f : Batch → Batch}
    (hf : ∀ b, (f b).id = b.id) : (s.updBatch id f).batchOf id = some (f b) := by
  rw [State.batchOf_map (f := fun b => if b.id = id then f b else b) (fun b => ?_) (fun i => Table.get_map _ _ _), h, Option.map_some,
    if_pos (State.batchOf_mem h).2]
  split
  · exact hf b
  · rfl

/-! ### Chains only lose -/

/-- Every chain of `t` is what is left of it in `s`. -/
def State.ChainsIn (s t : State) : Prop := ∀ n, (t.slot n).chain.Sublist (s.slot n).chain

theorem booked_chainsIn (s : State) : Booked (fun _ _ => True) (fun _ _ => True) (State.ChainsIn s) where
  same k h n := by rw [k.chain]; exact h n
  known _ _ := trivial
  place _ := trivial
  record _ _ _ := trivial
  keeps _ _ := trivial
  close {t} _ id o _ h := by
    cases hg : t.seg id with
    | none => rw [State.closeSeg_of_none hg]; exact h
    | some g => exact fun n => ((State.closes_closeSeg hg o).chain_sublist n).trans (h n)
  chained _ _ h := h
  active _ h := h
  mark _ h := h
  order _ _ _ h := h
  granted _ h := h
  endBatches {t} h := by
    obtain ⟨_, _, _, _, _, e⟩ := t.endBatches_eq
    rw [e]
    exact h

theorem State.chainsIn_skipWhere (s : State) (n : SlotId) (p : Segment → Option SkipReason) : s.ChainsIn (s.skipWhere n p) :=
  (booked_chainsIn s).skipWhere (fun _ => .refl _) n p

theorem State.chainsIn_withdrawWhere (s : State) (n : SlotId) (p : Segment → Bool) : s.ChainsIn (s.withdrawWhere n p) :=
  (booked_chainsIn s).withdrawWhere (fun _ => .refl _) n p

theorem State.mem_chainSegs_of {s : State} {n : SlotId} {id : SegId} {g : Segment} (hid : id ∈ (s.slot n).chain)
    (hg : s.seg id = some g) : (id, g) ∈ s.chainSegs n :=
  List.mem_filterMap.2 ⟨id, hid, by rw [hg]; rfl⟩

/-! ### What is skipped and withdrawn of a chain -/

theorem State.seg_closeSeg {s : State} {id i : SegId} {o : SegOutcome} {g : Segment} (h : (s.closeSeg id o).seg i = some g) :
    id ≠ i ∧ s.seg i = some g := by
  cases hs : s.seg id with
  | none =>
    rw [State.closeSeg_of_none hs] at h
    refine ⟨?_, h⟩
    rintro rfl
    rw [hs] at h
    cases h
  | some x => exact (State.closes_closeSeg hs o).of_seg h

/-- What a skip leaves of a chain it had not picked. -/
theorem State.seg_skipWhere {s : State} {n : SlotId} {p : Segment → Option SkipReason} {i : SegId} {g : Segment}
    (h : (s.skipWhere n p).seg i = some g) : s.seg i = some g ∧ (i ∈ (s.slot n).chain → p g = none) := by
  have hfold : ∀ (l : List (SegId × Segment)) (u : State), (l.foldl (fun s x => match p x.2 with
      | some r => s.closeSeg x.1 (.skipped r)
      | none => s) u).seg i = some g → u.seg i = some g ∧ ∀ x ∈ l, x.1 = i → p x.2 = none := by
    intro l
    induction l with
    | nil => exact fun u hu => ⟨hu, nofun⟩
    | cons x l ih =>
      intro u hu
      obtain ⟨hs, hl⟩ := ih _ hu
      dsimp only at hs
      split at hs
      · obtain ⟨hne, hs⟩ := State.seg_closeSeg hs
        exact ⟨hs, List.forall_mem_cons.2 ⟨fun e => absurd e hne, hl⟩⟩
      · rename_i hp
        exact ⟨hs, List.forall_mem_cons.2 ⟨fun _ => hp, hl⟩⟩
  obtain ⟨hs, hl⟩ := hfold _ s h
  exact ⟨hs, fun hi => hl _ (State.mem_chainSegs_of hi hs) rfl⟩

theorem State.seg_withdrawSeg {s : State} {n : SlotId} {id i : SegId} {x g : Segment} (h : (s.withdrawSeg n id x).seg i = some g)
    (hg : g.state ≠ .chained) : id ≠ i ∧ s.seg i = some g := by
  unfold State.withdrawSeg at h
  dsimp only at h
  split at h
  · exact State.seg_closeSeg (s := s.removeOrder n id) h
  · by_cases e : id = i
    · subst e
      rw [State.seg_updSeg_self, Option.map_eq_some_iff] at h
      obtain ⟨y, -, rfl⟩ := h
      exact absurd rfl hg
    · rw [State.seg_updSeg_ne _ _ e] at h
      exact ⟨e, h⟩

/-- What a withdrawal leaves, CHAINED segments apart, it had not picked. -/
theorem State.seg_withdrawWhere {s : State} {n : SlotId} {p : Segment → Bool} {i : SegId} {g : Segment}
    (h : (s.withdrawWhere n p).seg i = some g) (hg : g.state ≠ .chained) :
    s.seg i = some g ∧ (i ∈ (s.slot n).chain → g.state = .granted → p g = false) := by
  have hfold : ∀ (l : List (SegId × Segment)) (u : State), (l.foldl (fun s x => s.withdrawSeg n x.1 x.2) u).seg i = some g →
      u.seg i = some g ∧ ∀ x ∈ l, x.1 ≠ i := by
    intro l
    induction l with
    | nil => exact fun u hu => ⟨hu, nofun⟩
    | cons x l ih =>
      intro u hu
      obtain ⟨hs, hl⟩ := ih _ hu
      obtain ⟨hne, hs⟩ := State.seg_withdrawSeg hs hg
      exact ⟨hs, List.forall_mem_cons.2 ⟨hne, hl⟩⟩
  have hpick : s.seg i = some g ∧ ∀ x ∈ (s.grantedSegs n).filter fun x => decide (x.2.state = .granted) && p x.2, x.1 ≠ i := by
    unfold State.withdrawWhere at h
    dsimp only at h
    split at h
    · rename_i he
      rw [List.isEmpty_iff.1 he]
      exact ⟨h, nofun⟩
    · split at h
      · exact hfold _ s h
      · exact hfold _ s h
  obtain ⟨hs, hl⟩ := hpick
  refine ⟨hs, fun hi hst => ?_⟩
  by_contra hp
  have hmem : (i, g) ∈ s.grantedSegs n := List.mem_filter.2 ⟨State.mem_chainSegs_of hi hs, by simp [hst]⟩
  exact hl (i, g) (List.mem_filter.2 ⟨hmem, by simp [hst, hp]⟩) rfl

/-! ### The segments of a batch that is being aborted -/

/-- Batch `id` is ABORTING, no segment of it is CHAINED in the chains of `C`, and none GRANTED without its mark in those of `G`;
`o` is the state the abort began with. -/
structure State.Skips (o : State) (id : Nat) (C G : SlotId → Prop) (t : State) : Prop where
  aborts : ∃ x, t.batchOf id = some x ∧ x.state = .aborting
  came : ∀ i g, t.seg i = some g → ∃ h, o.seg i = some h ∧ h.batch = g.batch
  chained : ∀ n, C n → ∀ i g, i ∈ (t.slot n).chain → t.seg i = some g → g.batch = some id → g.state ≠ .chained
  granted : ∀ n, G n → ∀ i g, i ∈ (t.slot n).chain → t.seg i = some g → g.batch = some id → g.state = .granted → g.continuation = true

section Skips
variable {o : State} {id : Nat} {C G : SlotId → Prop} {s t : State}

theorem State.Skips.same (h : State.Skips o id C G s) (k : s.SameBooks t) : State.Skips o id C G t where
  aborts := by rw [State.batchOf_of_eq k.batches]; exact h.aborts
  came i g hg := h.came i g (by rwa [State.seg, k.pool] at hg)
  chained n hn i g hi hg := h.chained n hn i g (by rwa [k.chain] at hi) (by rwa [State.seg, k.pool] at hg)
  granted n hn i g hi hg := h.granted n hn i g (by rwa [k.chain] at hi) (by rwa [State.seg, k.pool] at hg)

/-- A segment changes its state; of the batch it is neither CHAINED behind nor newly GRANTED. -/
theorem State.Skips.updSeg (h : State.Skips o id C G s) (j : SegId) {f : Segment → Segment} (hb : ∀ g, (f g).batch = g.batch)
    (hc : ∀ g, s.seg j = some g → g.batch = some id → (f g).state = .chained → g.state = .chained)
    (hg : ∀ g, (f g).state = .granted → g.state = .granted ∧ (g.continuation = true → (f g).continuation = true)) :
    State.Skips o id C G (s.updSeg j f) := by
  have hof : ∀ i g, (s.updSeg j f).seg i = some g →
      ∃ x, s.seg i = some x ∧ x.batch = g.batch ∧ (g.batch = some id → g.state = .chained → x.state = .chained) ∧
        (g.state = .granted → x.state = .granted ∧ (x.continuation = true → g.continuation = true)) := by
    intro i g hi
    by_cases e : j = i
    · subst e
      rw [State.seg_updSeg_self, Option.map_eq_some_iff] at hi
      obtain ⟨x, hx, rfl⟩ := hi
      exact ⟨x, hx, (hb x).symm, fun hgb => hc x hx ((hb x).symm.trans hgb), hg x⟩
    · rw [State.seg_updSeg_ne _ _ e] at hi
      exact ⟨g, hi, rfl, fun _ e => e, fun e => ⟨e, fun e => e⟩⟩
  refine ⟨h.aborts, fun i g hi => ?_, fun n hn i g hi hx hgb e => ?_, fun n hn i g hi hx hgb e => ?_⟩
  · obtain ⟨x, hx, hxb, -⟩ := hof i g hi
    obtain ⟨y, hy, hyb⟩ := h.came i x hx
    exact ⟨y, hy, hyb.trans hxb⟩
  · obtain ⟨x, hx, hxb, hxc, -⟩ := hof i g hx
    exact h.chained n hn i x hi hx (hxb.trans hgb) (hxc hgb e)
  · obtain ⟨x, hx, hxb, -, hxg⟩ := hof i g hx
    exact (hxg e).2 (h.granted n hn i x hi hx (hxb.trans hgb) (hxg e).1)

theorem filed_skips (o : State) (id : Nat) (C G : SlotId → Prop) :
    Filed (fun _ _ => True) (fun _ x => ∀ h, o.seg x.1 = some h → h.batch = x.2.batch) (State.Skips o id C G) where
  same k h := h.same k
  known hx h y hy := by
    obtain ⟨z, hz, hb⟩ := h.came _ _ (State.mem_chainSegs hx).2
    rw [hz] at hy
    cases hy
    exact hb
  place _ := trivial
  record _ hg h y hy := by
    obtain ⟨z, hz, hb⟩ := h.came _ _ hg
    rw [hz] at hy
    cases hy
    exact hb
  keeps _ _ := trivial
  close {s} _ i out _ h := by
    cases hg : s.seg i with
    | none => rw [State.closeSeg_of_none hg]; exact h
    | some g =>
      have hc := State.closes_closeSeg hg out
      refine ⟨?_, fun j x hx => h.came j x (hc.of_seg hx).2, fun n hn j x hj hx => h.chained n hn j x (hc.mem_chain.1 hj).1 (hc.of_seg hx).2,
        fun n hn j x hj hx => h.granted n hn j x (hc.mem_chain.1 hj).1 (hc.of_seg hx).2⟩
      obtain ⟨x, hx, hst⟩ := h.aborts
      refine ⟨if g.batch = some x.id then x.count out else x, by rw [hc.batchOf, hx]; rfl, ?_⟩
      split
      · exact (x.count_frame out).2.1.trans hst
      · exact hst
  chained {s} _ x hk ha h := h.updSeg x.1 (fun _ => rfl) (fun g hg hgb _ => by
    obtain ⟨y, hy, hyb⟩ := h.came _ _ hg
    obtain ⟨z, hz, hst⟩ := h.aborts
    have hxb : x.2.batch = some id := (hk y hy).symm.trans (hyb.trans hgb)
    rw [State.abortingBatch, hxb, Option.bind_some, hz] at ha
    simp [hst] at ha) fun _ e => by cases e
  active _ h := h.updSeg _ (fun _ => rfl) (fun _ _ _ e => by cases e) fun _ e => by cases e
  mark _ h := h.updSeg _ (fun _ => rfl) (fun _ _ _ e => e) fun _ e => ⟨e, fun _ => rfl⟩
  order _ _ _ h := ⟨h.aborts, h.came, h.chained, h.granted⟩

/-- What an abort closes and withdraws in one chain (R61). -/
theorem State.Skips.abortWithdraw (h : State.Skips o id C G s) (n : SlotId) :
    State.Skips o id (fun m => C m ∨ m = n) (fun m => G m ∨ m = n) (s.abortWithdraw id n) := by
  have hskip := (filed_skips o id C G).skipWhere h n fun g => if g.batch = some id ∧ g.state = .chained then some .aborted else none
  have hskip' : State.Skips o id (fun m => C m ∨ m = n) G
      (s.skipWhere n fun g => if g.batch = some id ∧ g.state = .chained then some .aborted else none) := by
    refine ⟨hskip.aborts, hskip.came, fun m hm i g hi hg hb hc => ?_, hskip.granted⟩
    obtain hm | rfl := hm
    · exact hskip.chained m hm i g hi hg hb hc
    · have := (State.seg_skipWhere hg).2 ((s.chainsIn_skipWhere m _ m).subset hi)
      rw [if_pos ⟨hb, hc⟩] at this
      cases this
  have hdraw := (filed_skips o id _ G).withdrawWhere hskip' n fun g => decide (g.batch = some id) && !g.continuation
  refine ⟨hdraw.aborts, hdraw.came, hdraw.chained, fun m hm i g hi hg hb hst => ?_⟩
  obtain hm | rfl := hm
  · exact hdraw.granted m hm i g hi hg hb hst
  · have := (State.seg_withdrawWhere hg (by rw [hst]; decide)).2 ((State.chainsIn_withdrawWhere _ m _ m).subset hi) hst
    simpa [hb] using this

theorem State.Skips.abortSlots (h : State.Skips o id C G s) (l : List SlotId) :
    State.Skips o id (fun m => C m ∨ m ∈ l) (fun m => G m ∨ m ∈ l) (l.foldl (fun s n => s.abortSlot id n) s) := by
  induction l generalizing s C G with
  | nil => simpa using h
  | cons n l ih =>
    have := ih ((filed_skips o id _ _).abortSlot_of id n (h.abortWithdraw n))
    simpa only [List.mem_cons, or_assoc, List.foldl_cons] using this

end Skips

/-- The state an abort begins with: the batch ABORTING (R61). -/
def State.setAborting (s : State) (b : Batch) : State := s.updBatch b.id fun r => { r with state := .aborting }

/-- Every chain behind what an abort closes and withdraws there (R61). -/
def State.abortSlots (s : State) (b : Batch) : State := allSlots.foldl (fun s n => s.abortSlot b.id n) (s.setAborting b)

theorem State.abortBatch_eq (s : State) (b : Batch) : s.abortBatch b = ((s.abortSlots b).judgeAll.endBatches).finish s := rfl

theorem State.skips_abortSlots {s : State} {id : Nat} {b : Batch} (hb : s.batchOf id = some b) :
    State.Skips s b.id (fun _ => True) (fun _ => True) (s.abortSlots b) := by
  have hid := (State.batchOf_mem hb).2
  subst hid
  have h0 : State.Skips s b.id (fun _ => False) (fun _ => False) (s.setAborting b) :=
    ⟨⟨_, State.batchOf_updBatch hb fun _ => rfl, rfl⟩, fun i g hg => ⟨g, hg, rfl⟩, fun _ h => h.elim, fun _ h => h.elim⟩
  have h1 := h0.abortSlots allSlots
  exact ⟨h1.aborts, h1.came, fun n _ => h1.chained n (.inr (List.mem_finRange n)), fun n _ => h1.granted n (.inr (List.mem_finRange n))⟩

/-! ### Behind the abort -/

/-- No segment of batch `id` is CHAINED in a chain, and none GRANTED there without its mark. -/
def State.SkippedIn (id : Nat) (t : State) : Prop :=
  ∀ n i g, i ∈ (t.slot n).chain → t.seg i = some g → g.batch = some id →
    g.state ≠ .chained ∧ (g.state = .granted → g.continuation = true)

theorem State.SkippedIn.of_eq {id : Nat} {s t : State} (h : State.SkippedIn id s) (hc : ∀ n, (t.slot n).chain = (s.slot n).chain)
    (hp : t.pool = s.pool) : State.SkippedIn id t :=
  fun n i g hi hg => h n i g (by rwa [hc] at hi) (by rwa [State.seg, hp] at hg)

theorem State.SkippedIn.endBatches {id : Nat} {s : State} (h : State.SkippedIn id s) : State.SkippedIn id s.endBatches := by
  obtain ⟨_, _, _, _, _, e⟩ := s.endBatches_eq
  rw [e]
  exact h.of_eq (fun _ => rfl) rfl

theorem State.SkippedIn.settleEvent {id : Nat} {s : State} (h : State.SkippedIn id s) (old : State) :
    State.SkippedIn id (s.settleEvent old) := by
  obtain ⟨_, _, e⟩ := s.settleEvent_frame old
  rw [e]
  exact h.of_eq (fun _ => rfl) rfl

theorem driven_skippedIn (id : Nat) : Driven (State.SkippedIn id) where
  same k h := h.of_eq k.chain k.pool
  send {_ t _ _ j} _ _ h := by
    intro n i g hi hg hb
    by_cases e : j = i
    · subst e
      rw [State.seg_updSeg_self, Option.map_eq_some_iff] at hg
      obtain ⟨x, -, rfl⟩ := hg
      exact ⟨nofun, nofun⟩
    · rw [State.seg_updSeg_ne _ _ e] at hg
      exact h n i g hi hg hb
  mark {s} j h := by
    intro n i g hi hg hb
    by_cases e : j = i
    · subst e
      rw [State.seg_updSeg_self, Option.map_eq_some_iff] at hg
      obtain ⟨x, hx, rfl⟩ := hg
      exact ⟨(h n j x hi hx hb).1, fun _ => rfl⟩
    · rw [State.seg_updSeg_ne _ _ e] at hg
      exact h n i g hi hg hb

theorem State.skippedIn_abortBatch {s : State} {id : Nat} {b : Batch} (hb : s.batchOf id = some b) :
    State.SkippedIn b.id (s.abortBatch b) := by
  have h := (filed_skips s b.id _ _).judgeAll (State.skips_abortSlots hb)
  have h1 : State.SkippedIn b.id (s.abortSlots b).judgeAll :=
    fun n i g hi hg hgb => ⟨h.chained n trivial i g hi hg hgb, h.granted n trivial i g hi hg hgb⟩
  exact State.SkippedIn.settleEvent ((driven_skippedIn b.id).runBuses h1.endBatches) s

/-- The rule's answer for a RUNNING batch (R61). -/
theorem abortBatchRule_running {s : State} {id : Nat} {b : Batch} (hb : s.batchOf id = some b) (hr : b.state = .running) :
    abortBatchRule id s = (s.abortBatch b).reply .ok := by simp [abortBatchRule, hb, hr]

/-! ### An abort keeps the agreement -/

section
variable {X : SegId → Prop} {s : State} (h : s.Kept X)
include h

theorem State.Kept.setAborting {b : Batch} (hb : s.batchOf b.id = some b) (hr : b.state = .running) :
    State.Books (fun i => X i ∨ ∃ g, s.seg i = some g ∧ g.batch = some b.id) s (s.setAborting b) := by
  have hA := h.toLedger.accounts
  obtain ⟨⟨p, hp⟩, -⟩ := State.batchOf_mem hb
  have hof : ∀ j y, (s.setAborting b).batches.get j = some y → ∃ x, s.batches.get j = some x ∧ y.id = x.id ∧
      (y.state = .opened ↔ x.state = .opened) ∧ (y.state = .aborting → x.state = .aborting ∨ x.id = b.id) ∧ s.BatchSound y := by
    intro j y hy
    rw [State.setAborting, State.updBatch, Table.get_map, Option.map_eq_some_iff] at hy
    obtain ⟨x, hx, rfl⟩ := hy
    have hs := hA.batches j x hx
    split
    · rename_i e
      have hj := hA.ids j p x b hx hp e
      subst hj
      rw [hp] at hx
      cases hx
      have hend := hs.ended.1
      refine ⟨b, hp, rfl, by simp [hr], fun _ => .inr rfl, nofun, fun _ => hs.committed (by rw [hr]; decide), ?_, by simp⟩
      rw [hr] at hend
      simpa using hend
    · exact ⟨x, hx, rfl, .rfl, .inl, hs⟩
  have hput : ∀ j x, s.batches.get j = some x → ∃ y, (s.setAborting b).batches.get j = some y := fun j x hx =>
    ⟨_, by rw [State.setAborting, State.updBatch, Table.get_map, hx]; rfl⟩
  refine ⟨⟨hA.chainOnce, hA.chains, fun j k x y hx hy e => ?_, fun j k x y hx hy ex ey => ?_, fun j y hy => ?_,
    fun i g c hg hgc => ?_, hA.unowned, hA.keeps⟩, rfl, fun i g hg => ⟨g, hg, .refl g⟩, fun i g hg _ hn => ?_,
    fun i g j y hg hy hgb hst hc => ?_⟩
  · obtain ⟨x', hx', ex, -⟩ := hof j x hx
    obtain ⟨y', hy', ey, -⟩ := hof k y hy
    exact hA.ids j k x' y' hx' hy' (ex.symm.trans (e.trans ey))
  · obtain ⟨x', hx', -, ex', -⟩ := hof j x hx
    obtain ⟨y', hy', -, ey', -⟩ := hof k y hy
    exact hA.openOnce j k x' y' hx' hy' (ex'.1 ex) (ey'.1 ey)
  · obtain ⟨-, -, -, -, -, hs⟩ := hof j y hy
    exact hs.of_segs fun _ _ _ => .rfl
  · obtain ⟨j, x, hx, hxc, hxo⟩ := hA.owned i g c hg hgc
    obtain ⟨y, hy⟩ := hput j x hx
    obtain ⟨x', hx', e1, e2, -⟩ := hof j y hy
    rw [hx] at hx'
    cases hx'
    exact ⟨j, y, hy, e1.trans hxc, hxo.trans e2.symm⟩
  · rw [show (s.setAborting b).seg i = s.seg i from rfl, hg] at hn
    cases hn
  · obtain ⟨x, hx, e1, -, e3, -⟩ := hof j y hy
    obtain hxs | hxb := e3 hst
    · exact .inl (h.within i g j x hg hx (hgb.trans (congrArg some e1)) hxs hc)
    · exact .inr ⟨g, hg, hgb.trans (congrArg some (e1.trans hxb))⟩

/-- Of the batch being aborted no segment is CHAINED any more (R62). -/
theorem State.Kept.abortSlots {id : Nat} {b : Batch} (hb : s.batchOf id = some b) (hr : b.state = .running) :
    State.Books X s (s.abortSlots b) := by
  have hb' : s.batchOf b.id = some b := (State.batchOf_mem hb).2.symm ▸ hb
  have hB : State.Books (fun i => X i ∨ ∃ g, s.seg i = some g ∧ g.batch = some b.id) s (s.abortSlots b) :=
    foldl_keeps (P := State.Books _ s) (fun _ n hu => (booked_books _ s).abortSlot hu b.id n) (h.setAborting hb' hr)
  have hS := State.skips_abortSlots hb
  refine ⟨hB.toAccounts, hB.free, hB.came, hB.staged, fun i g j x hg hx hgb hst hc => ?_⟩
  obtain hX | ⟨y, hy, hyb⟩ := hB.within i g j x hg hx hgb hst hc
  · exact hX
  · obtain ⟨z, hz, hzb⟩ := hS.came i g hg
    rw [hy] at hz
    cases hz
    exact absurd hc (hS.chained g.slot trivial i g ((hB.chains g.slot i).2 ⟨g, hg, rfl, by rw [hc]; decide⟩) hg (hzb.symm.trans hyb))

theorem State.Kept.abortBatch {id : Nat} {b : Batch} (hb : s.batchOf id = some b) (hr : b.state = .running) :
    (s.abortBatch b).Kept X :=
  ((booked_books X s).endBatches ((booked_books X s).judgeAll (h.abortSlots hb hr))).finish h.toLedger

theorem State.Kept.abortBatchRule (id : Nat) : (abortBatchRule id s).state.Kept X := by
  cases hb : s.batchOf id with
  | none =>
    rw [show Machine.abortBatchRule id s = s.reply .noBatch by simp [Machine.abortBatchRule, hb]]
    exact h
  | some b =>
    by_cases hr : b.state = .running
    · rw [abortBatchRule_running hb hr]
      exact h.abortBatch hb hr
    · have : (Machine.abortBatchRule id s).state = s := by
        unfold Machine.abortBatchRule
        rw [hb]
        cases hs : b.state <;> simp_all [State.reply]
      rw [this]
      exact h

end

end Sys2Proof.Machine
end


section
/-! SUPPORT. Every step keeps the agreement of the segment store (R48 to R52, R62). -/

namespace Sys2Proof.Machine

/-! ### Resets -/

/-- A reset leaves an empty segment store (R181, R187). -/
theorem State.kept_resetEvent (X : SegId → Prop) (s : State) (b : Bool) : (s.resetEvent b).Kept X := by
  have hseg : ∀ i, (s.resetEvent b).seg i = none := fun i => by simp [State.seg, State.resetEvent]
  have hfree : (s.resetEvent b).free = List.finRange 1024 := by simp only [State.resetEvent]
  have hbatch : ∀ i, (s.resetEvent b).batches.get i = none := fun i => by simp [State.resetEvent]
  have hbranch : ∀ c, (s.resetEvent b).branch c = .atReset := fun c => by simp [State.branch, State.resetEvent]
  have hchain : ∀ n, ((s.resetEvent b).slot n).chain = [] := fun n => by
    rw [State.slot_resetEvent]
    exact (slotAtReset_cases _ _).2.1
  have hkeeps : ∀ d i, ¬ Branch.atReset.Keeps d i := by
    rintro d i (⟨o, ho, -⟩ | ⟨o, ho, -⟩ | ⟨e, he, -⟩)
    · cases ho
    · cases ho
    · cases he
  have hnone : ∀ {α : Type} {x : α} {o : Option α}, o = none → o ≠ some x := fun e h => by
    rw [e] at h
    cases h
  refine ⟨State.Accounts.ledger ⟨fun n => by simp [hchain], fun n i => ?_, fun i j x y hx => absurd hx (hnone (hbatch i)),
    fun i j x y hx => absurd hx (hnone (hbatch i)), fun i x hx => absurd hx (hnone (hbatch i)),
    fun i g c hg => absurd hg (hnone (hseg i)), fun i g hg => absurd hg (hnone (hseg i)), fun c d i hk => ?_⟩
    (by rw [hfree]; exact List.nodup_finRange _) (fun i => iff_of_true (by rw [hfree]; exact List.mem_finRange i) (hseg i)),
    fun i g j x hg => absurd hg (hnone (hseg i))⟩
  · rw [hchain]
    exact iff_of_false List.not_mem_nil fun ⟨g, hg, _⟩ => hnone (hseg i) hg
  · rw [hbranch] at hk
    exact absurd hk (hkeeps d i)

/-- While the part is held no bus has a call (R187). -/
theorem State.sameBooks_resetHeld (s : State) : s.SameBooks { s with
    resetHeld := true
    ports := s.ports.map fun p => { p with sending := none }
    branches := s.branches.map fun br => { br with bus := none } } :=
  ⟨fun _ => rfl, rfl, rfl, rfl, fun b d id h => by
    simp only [State.branch, Table.get_map] at h
    exact h.of_poll_sub (fun _ h => h) (fun _ h => h) fun o ho => by cases ho⟩

/-! ### The commands -/

section
variable {X : SegId → Prop} {s : State} (h : s.Kept X)
include h

theorem State.Kept.queryNoticesRule (p : PortId) : (queryNoticesRule p s).state.Kept X := by
  unfold Machine.queryNoticesRule
  dsimp only
  split
  all_goals exact h

theorem State.Kept.badRequestFrame (p : PortId) (bad : BadFrame) : ∃ t, execBadRequestFrame p bad s = .next t ∧ t.Kept X := by
  cases bad with
  | failedCheck => exact ⟨_, rfl, h⟩
  | wrongForm code seq => exact ⟨_, rfl, h.badForm p _ _⟩
  | unknownItem seq => exact ⟨_, rfl, h.request p _ _ _ fun h => h⟩

theorem State.Kept.portFrameSent (p : PortId) : ∃ t, execPortFrameSent p s = .next t ∧ t.Kept X := by
  unfold execPortFrameSent
  split
  · split
    · exact ⟨_, rfl, State.kept_resetEvent X _ false⟩
    · exact ⟨_, rfl, h.event (h.elsewhere rfl rfl rfl rfl rfl)⟩
  · exact ⟨_, rfl, h⟩

theorem State.Kept.scan : ∃ t, execScan s = .next t ∧ t.Kept X := by
  unfold execScan
  split
  · exact ⟨_, rfl, h.busEvent ((booked_books X s).makeScan h.books)⟩
  · exact ⟨_, rfl, h⟩

theorem State.Kept.status (b : BranchId) (d : DropId) (r : StatusReply) : ∃ t, execStatus b d r s = .next t ∧ t.Kept X := by
  unfold execStatus
  split
  · split
    · exact ⟨_, rfl, h.busEvent ((booked_books X s).takeStatus h.books b d _ r)⟩
    · exact ⟨_, rfl, h⟩
  · exact ⟨_, rfl, h⟩

theorem State.Kept.roll (b : BranchId) (d : DropId) : ∃ t, execRoll b d s = .next t ∧ t.Kept X := by
  unfold execRoll
  split
  · split
    · refine ⟨_, rfl, h.busEvent (h.books.same ?_)⟩
      exact ((s.sameBooks_freeBus b).trans (State.sameBooks_found _ _)).trans (State.sameBooks_updBranch _ b fun _ _ h => h)
    · exact ⟨_, rfl, h⟩
  · exact ⟨_, rfl, h⟩

theorem State.Kept.replyWindowEnd (b : BranchId) (x : List Byte) : ∃ t, execReplyWindowEnd b x s = .next t ∧ t.Kept X := by
  unfold execReplyWindowEnd
  split
  · exact ⟨_, rfl, h.busEvent ((booked_books X s).windowEnd (h.books.same (s.sameBooks_clockTo _)) b x)⟩
  · exact ⟨_, rfl, h⟩

theorem State.Kept.settleEnd (b : BranchId) (d : DropId) : ∃ t, execSettleEnd b d s = .next t ∧ t.Kept X := by
  unfold execSettleEnd
  dsimp only
  split
  · exact ⟨_, rfl, h.timerEvent b _ fun _ _ hk => hk⟩
  · exact ⟨_, rfl, h⟩

omit h in
/-- The end of a NAK-busy wait leaves every order with its drop and its segment (R97). -/
theorem Branch.keeps_of_endWait {br : Branch} {c d : DropId} {id : SegId}
    (h : Branch.Keeps { br with queue := br.queue.map (Entry.endWait c), backlog := br.backlog.map (Order.endWait c) } d id) :
    br.Keeps d id := by
  have hsame : ∀ o : Order, (o.endWait c).drop = o.drop ∧ (o.endWait c).seg = o.seg := fun o => by
    unfold Order.endWait
    split <;> exact ⟨rfl, rfl⟩
  obtain ⟨o, ho, hd, hs⟩ | h | h := h
  · rw [Branch.mem_orders] at ho
    obtain ho | ho := ho
    · obtain ⟨e, he, heo⟩ := List.mem_map.1 ho
      cases e with
      | order a =>
        cases heo
        exact .inl ⟨a, (Branch.mem_orders _ _).2 (.inl he), (hsame a).1.symm.trans hd, (hsame a).2.symm.trans hs⟩
      | _ => cases heo
    · obtain ⟨a, ha, rfl⟩ := List.mem_map.1 ho
      exact .inl ⟨a, (Branch.mem_orders _ _).2 (.inr ha), (hsame a).1.symm.trans hd, (hsame a).2.symm.trans hs⟩
  · exact .inr (.inl h)
  · exact .inr (.inr h)

theorem State.Kept.nakBusyWaitEnd (b : BranchId) (d : DropId) : ∃ t, execNakBusyWaitEnd b d s = .next t ∧ t.Kept X := by
  unfold execNakBusyWaitEnd
  split
  · exact ⟨_, rfl, h.timerEvent b _ fun _ _ hk => Branch.keeps_of_endWait hk⟩
  · exact ⟨_, rfl, h⟩

theorem State.Kept.statusCallDue (b : BranchId) (d : DropId) : ∃ t, execStatusCallDue b d s = .next t ∧ t.Kept X := by
  unfold execStatusCallDue
  split
  · split
    · exact ⟨_, rfl, h⟩
    · exact ⟨_, rfl, h.updPoll b d _ fun _ => ⟨rfl, rfl⟩⟩
  · exact ⟨_, rfl, h⟩

theorem State.Kept.stallLimit (b : BranchId) (d : DropId) : ∃ t, execStallLimit b d s = .next t ∧ t.Kept X := by
  unfold execStallLimit
  split
  · split
    · exact ⟨_, rfl, h⟩
    · exact ⟨_, rfl, h.updPoll b d _ fun _ => ⟨rfl, rfl⟩⟩
  · exact ⟨_, rfl, h⟩

theorem State.Kept.idleCallDue (b : BranchId) (d : DropId) : ∃ t, execIdleCallDue b d s = .next t ∧ t.Kept X := by
  unfold execIdleCallDue
  dsimp only
  split
  · exact ⟨_, rfl, h.timerEvent b _ fun _ _ hk => hk⟩
  · exact ⟨_, rfl, h⟩

theorem State.Kept.dwellTimerEnd (n : SlotId) : ∃ t, execDwellTimerEnd n s = .next t ∧ t.Kept X := by
  have hB := booked_books X s
  unfold execDwellTimerEnd
  split
  · exact ⟨_, rfl, h.busEvent (hB.endBatches (hB.judge (hB.endDwell (h.books.same (s.sameBooks_clockTo _)) n) n))⟩
  · exact ⟨_, rfl, h⟩

theorem State.Kept.backoffEnd (n : SlotId) : ∃ t, execBackoffEnd n s = .next t ∧ t.Kept X := by
  unfold execBackoffEnd
  split
  · exact ⟨_, rfl, h.event (h.elsewhere rfl rfl rfl rfl rfl)⟩
  · exact ⟨_, rfl, h⟩

theorem State.Kept.claimAnswerTimeout (k : LinkId) : ∃ t, execClaimAnswerTimeout k s = .next t ∧ t.Kept X := by
  unfold execClaimAnswerTimeout
  split
  · exact ⟨_, rfl, h.busEvent (h.books.same (((s.sameBooks_clockTo _).trans (State.sameBooks_timeOutClaim _ k)).trans
      (State.sameBooks_countTimeout _ k)))⟩
  · exact ⟨_, rfl, h⟩

omit h in
theorem State.sameBooks_sendSync (s : State) (k : LinkId) : s.SameBooks (s.sendSync k) := .of_eq rfl rfl rfl rfl rfl

theorem State.Kept.syncTimeout (k : LinkId) : ∃ t, execSyncTimeout k s = .next t ∧ t.Kept X := by
  unfold execSyncTimeout
  split
  · exact ⟨_, rfl, h.busEvent (h.books.same (((s.sameBooks_clockTo _).trans (State.sameBooks_countTimeout _ k)).trans
      (State.sameBooks_sendSync _ k)))⟩
  · exact ⟨_, rfl, h⟩

theorem State.Kept.claim (k : LinkId) (x : SectorId) (n : Byte) (l : List Nat) : ∃ t, execClaim k x n l s = .next t ∧ t.Kept X := by
  unfold execClaim
  split
  · exact ⟨_, rfl, h.borderEvent k x _ fun hu => hu.same (State.sameBooks_takeClaim _ k n l)⟩
  · exact ⟨_, rfl, h⟩

theorem State.Kept.refuse (k : LinkId) (x : SectorId) (n : Byte) (r : RefuseReason) : ∃ t, execRefuse k x n r s = .next t ∧ t.Kept X := by
  refine ⟨_, rfl, h.borderEvent k x _ fun {u} hu => ?_⟩
  split
  · split
    · exact hu.same (((u.sameBooks_endClaim k _ _).trans (State.sameBooks_backOff _ _)).trans (State.sameBooks_causeScan _))
    · exact hu
  · exact hu

theorem State.Kept.release (k : LinkId) (x : SectorId) (l : List Nat) : ∃ t, execRelease k x l s = .next t ∧ t.Kept X := by
  unfold execRelease
  split
  · exact ⟨_, rfl, h.borderEvent k x _ fun hu => hu.same (State.sameBooks_takeRelease _ k l)⟩
  · exact ⟨_, rfl, h⟩

theorem State.Kept.sync (k : LinkId) (x : SectorId) : ∃ t, execSync k x s = .next t ∧ t.Kept X :=
  ⟨_, rfl, h.borderEvent k x _ fun {u} hu => hu.same ((u.sameBooks_report k).trans (State.sameBooks_timeOutClaim _ k))⟩

theorem State.Kept.syncReport (k : LinkId) (x : SectorId) (a b : List Nat) : ∃ t, execSyncReport k x a b s = .next t ∧ t.Kept X := by
  unfold execSyncReport
  split
  · exact ⟨_, rfl, h.borderEvent k x _ fun hu => hu.same (State.sameBooks_takeReport _ k a b)⟩
  · exact ⟨_, rfl, h⟩

theorem State.Kept.stopLineAssert : ∃ t, execStopLineAssert s = .next t ∧ t.Kept X := by
  have h' : State.Kept X { s with stopLine := true } := h.elsewhere rfl rfl rfl rfl rfl
  exact ⟨_, rfl, h'.event (((booked_books X _).takeStop h'.books).finish h'.toLedger)⟩

theorem State.Kept.resetLineRelease (x : Straps) : ∃ t, execResetLineRelease x s = .next t ∧ t.Kept X := by
  unfold execResetLineRelease
  split
  · exact ⟨_, rfl, State.kept_resetEvent X _ false⟩
  · exact ⟨_, rfl, h⟩

theorem State.Kept.loadPhaseEnd : ∃ t, execLoadPhaseEnd s = .next t ∧ t.Kept X := by
  unfold execLoadPhaseEnd
  split
  · have h' : State.Books X s { s with phase := .halt } := h.books.same (.of_eq rfl rfl rfl rfl rfl)
    exact ⟨_, rfl, h.event (State.Books.finish (foldl_keeps (P := State.Books X s)
      (fun _ b hu => (booked_books X s).requestHalt hu b) h') h.toLedger)⟩
  · exact ⟨_, rfl, h⟩

/-- Every command keeps the agreement of the segment store. -/
theorem State.Kept.exec (c : Instr) : ∃ t, exec c s = .next t ∧ t.Kept X := by
  cases c with
  | openBatch p seq id => exact ⟨_, rfl, h.request p _ seq _ fun h => h.openBatchRule id⟩
  | loadSegment p seq d => exact ⟨_, rfl, h.request p _ seq _ fun h => h.loadSegmentRule d⟩
  | commitBatch p seq id => exact ⟨_, rfl, h.request p _ seq _ fun h => h.commitBatchRule id⟩
  | cancelOpen p seq => exact ⟨_, rfl, h.request p _ seq _ fun h => h.cancelOpenRule⟩
  | abortBatch p seq id => exact ⟨_, rfl, h.request p _ seq _ fun h => h.abortBatchRule id⟩
  | ackLoadError p seq => exact ⟨_, rfl, h.request p _ seq _ fun h => h.elsewhere rfl rfl rfl rfl rfl⟩
  | queryBatch p seq id => exact ⟨_, rfl, h.request p _ seq _ fun h => h.queryBatchRule id⟩
  | hold p seq => exact ⟨_, rfl, h.request p _ seq _ fun h => h.holdRule⟩
  | resume p seq => exact ⟨_, rfl, h.request p _ seq _ fun h => h.resumeRule⟩
  | stop p seq => exact ⟨_, rfl, h.request p _ seq _ fun h => h.stopRule⟩
  | queryQueue p seq => exact ⟨_, rfl, h.request p _ seq _ fun h => h⟩
  | querySlot p seq n => exact ⟨_, rfl, h.request p _ seq _ fun h => h.querySlotRule n⟩
  | clearFault p seq n => exact ⟨_, rfl, h.request p _ seq _ fun h => h.clearFaultRule n⟩
  | retire p seq n => exact ⟨_, rfl, h.request p _ seq _ fun h => h.retireRule n⟩
  | unretire p seq n => exact ⟨_, rfl, h.request p _ seq _ fun h => h.unretireRule n⟩
  | storeRetired p seq => exact ⟨_, rfl, h.request_writesOnly p _ seq writesOnly_storeRetired⟩
  | measure p seq n a f l => exact ⟨_, rfl, h.request p _ seq _ fun h => h.measureRule n a f l⟩
  | setFootprint p seq n l => exact ⟨_, rfl, h.request p _ seq _ fun h => h.setFootprintRule n l⟩
  | loadTrim p seq d => exact ⟨_, rfl, h.request p _ seq _ fun h => h.loadTrimRule d⟩
  | streamPositions p seq a b => exact ⟨_, rfl, h.request p _ seq _ fun h => h.streamPositionsRule a b⟩
  | streamArm p seq a b => exact ⟨_, rfl, h.request p _ seq _ fun h => h.streamArmRule a b⟩
  | streamStop p seq => exact ⟨_, rfl, h.request p _ seq _ fun h => h.streamStopRule⟩
  | readSense p seq n => exact ⟨_, rfl, h.request p _ seq _ fun h => h.readSenseRule n⟩
  | clearChange p seq n => exact ⟨_, rfl, h.request p _ seq _ fun h => h.clearChangeRule n⟩
  | setSenseWatch p seq n w => exact ⟨_, rfl, h.request p _ seq _ fun h => h.setSenseWatchRule n w⟩
  | queryCell p seq c => exact ⟨_, rfl, h.request p _ seq _ fun h => h.queryCellRule c⟩
  | takeBranch p seq n => exact ⟨_, rfl, h.request p _ seq _ fun h => h.takeBranchRule n⟩
  | giveBranch p seq n => exact ⟨_, rfl, h.request p _ seq _ fun h => h.giveBranchRule n⟩
  | directFrame p seq a b l => exact ⟨_, rfl, h.request p _ seq _ fun h => h.directFrameRule a b l⟩
  | census p seq => exact ⟨_, rfl, h.request p _ seq _ fun h => h.censusRule⟩
  | queryBranch p seq n => exact ⟨_, rfl, h.request p _ seq _ fun h => h.queryBranchRule n⟩
  | reclaimBorder p seq n => exact ⟨_, rfl, h.request p _ seq _ fun h => h.reclaimBorderRule n⟩
  | queryLink p seq n => exact ⟨_, rfl, h.request p _ seq _ fun h => h.queryLinkRule n⟩
  | setTimebase p seq us => exact ⟨_, rfl, h.request_writesOnly p _ seq (writesOnly_setTimebase us)⟩
  | writeStoreSectorId p seq id => exact ⟨_, rfl, h.request_writesOnly p _ seq (writesOnly_sectorId id)⟩
  | writeStoreFixedList p seq l => exact ⟨_, rfl, h.request_writesOnly p _ seq (writesOnly_fixedList l)⟩
  | writeStorePatrolSet p seq n l => exact ⟨_, rfl, h.request_writesOnly p _ seq (writesOnly_patrolSet n l)⟩
  | writeStoreBorderEntry p seq n e => exact ⟨_, rfl, h.request_writesOnly p _ seq (writesOnly_borderEntry n e)⟩
  | writeStoreRetiredEntry p seq n e => exact ⟨_, rfl, h.request_writesOnly p _ seq (writesOnly_retiredEntry n e)⟩
  | writeStoreClear p seq => exact ⟨_, rfl, h.request_writesOnly p _ seq writesOnly_clear⟩
  | resetSector p seq => exact ⟨_, rfl, h.request p _ seq _ fun h => h⟩
  | subscribe p seq k => exact ⟨_, rfl, h.request p _ seq _ fun h => h.elsewhere rfl rfl rfl rfl rfl⟩
  | queryNotices p seq => exact ⟨_, rfl, h.request p _ seq _ fun h => h.queryNoticesRule p⟩
  | badRequestFrame p bad => exact h.badRequestFrame p bad
  | portFrameSent p => exact h.portFrameSent p
  | scan => exact h.scan
  | ack b d => exact ⟨_, rfl, h.onOrder b d fun _ _ hb => (booked_books X s).takeAck h.books hb⟩
  | nakBusy b d => exact ⟨_, rfl, h.onOrder b d fun _ _ hb => (booked_books X s).takeNak h.books hb _⟩
  | status b d r => exact h.status b d r
  | roll b d => exact h.roll b d
  | branchFrameDiscarded b => exact ⟨_, rfl, h⟩
  | replyWindowEnd b x => exact h.replyWindowEnd b x
  | settleEnd b d => exact h.settleEnd b d
  | nakBusyWaitEnd b d => exact h.nakBusyWaitEnd b d
  | statusCallDue b d => exact h.statusCallDue b d
  | stallLimit b d => exact h.stallLimit b d
  | idleCallDue b d => exact h.idleCallDue b d
  | dwellTimerEnd n => exact h.dwellTimerEnd n
  | backoffEnd n => exact h.backoffEnd n
  | claimAnswerTimeout k => exact h.claimAnswerTimeout k
  | syncTimeout k => exact h.syncTimeout k
  | claim k x n l => exact h.claim k x n l
  | grant k x n => exact ⟨_, exec_grant k x n s, h.borderEvent k x _ fun hu => (booked_books X s).grantFrame hu k n⟩
  | refuse k x n r => exact h.refuse k x n r
  | release k x l => exact h.release k x l
  | sync k x => exact h.sync k x
  | syncReport k x a b => exact h.syncReport k x a b
  | borderFrameDiscarded k => exact ⟨_, rfl, h⟩
  | stopLineAssert => exact h.stopLineAssert
  | stopLineRelease => exact ⟨_, rfl, h.elsewhere rfl rfl rfl rfl rfl⟩
  | powerOn x => exact ⟨_, rfl, State.kept_resetEvent X _ true⟩
  | resetLineAssert => exact ⟨_, rfl, h.same s.sameBooks_resetHeld⟩
  | resetLineRelease x => exact h.resetLineRelease x
  | loadPhaseEnd => exact h.loadPhaseEnd

theorem State.Kept.step {t : State} (ht : step s = .next t) : t.Kept X := by
  unfold Machine.step at ht
  split at ht
  · cases ht
    exact h.elsewhere rfl rfl rfl rfl rfl
  · rename_i c rest _
    obtain ⟨u, hu, hk⟩ := State.Kept.exec (s := { s with pending := rest }) (h.elsewhere rfl rfl rfl rfl rfl) c
    rw [hu] at ht
    cases ht
    exact hk

end

/-! ### The pool -/

/-- Free records and segments make up the pool of 1,024 (R48). -/
theorem State.Ledger.pool_total {s : State} (h : s.Ledger) : s.free.length + s.liveCount (fun _ => true) = 1024 := by
  have hfree : s.pool.items.countP Option.isNone = s.free.length :=
    Table.countP_eq_length h.freeOnce fun i => by rw [h.freeRecords, Option.isNone_iff_eq_none]; rfl
  have hlive : s.liveCount (fun _ => true) = s.pool.items.countP fun x => ¬ x.isNone := by
    refine List.countP_congr fun x _ => ?_
    cases x <;> simp
  rw [← hfree, hlive, ← List.length_eq_countP_add_countP, s.pool.size]

/-- Settles O25: the abort by `State.SkippedIn`, the agreement by `State.Kept`, which every command keeps. -/
theorem abortSkips : Obligations.AbortSkips := by
  refine ⟨fun s t p seq id b hT hb hr ht => ?_, fun s t hl ht => ⟨?_, fun hn => ?_⟩, fun s hl => ⟨hl.pool_total, fun i x hx hst => ?_⟩⟩
  · have hid := (State.batchOf_mem hb).2
    subst hid
    have hrule := abortBatchRule_running (s := s.takeInHand p ReqCode.abortBatch.number seq) hb hr
    have hk : State.SkippedIn b.id ((s.takeInHand p ReqCode.abortBatch.number seq).abortBatch b) := State.skippedIn_abortBatch hb
    cases ht
    rw [State.request_takes hT, hrule]
    exact (driven_skippedIn b.id).same (State.sameBooks_kickPorts _) ((driven_skippedIn b.id).same (State.sameBooks_make _ p) hk)
  · have hk : s.Kept fun _ => True := ⟨hl, fun _ _ _ _ _ _ _ _ _ => trivial⟩
    exact (hk.step ht).toLedger
  · have hk : s.Kept fun _ => False := ⟨hl, State.noneChainedAborting_iff.1 hn⟩
    exact State.noneChainedAborting_iff.2 (hk.step ht).within
  · exact ((hl.batches i x hx).committed hst).2.1

end Sys2Proof.Machine
end


section
/-! SUPPORT. COMMIT_BATCH as its answer and its effect are judged (R58 to R60). -/

namespace Sys2Proof.Machine

section
variable {s : State}

/-! ### What the ends of batches leave -/

theorem State.carries_endBatch (b : Batch) (m : PortId) : (s.port m).Carries ((s.endBatch b).port m) := by
  have hfire : ∀ u : State, u.fireArm.port m = u.port m := fun u => by
    unfold State.fireArm
    split <;> rfl
  unfold State.endBatch
  rw [hfire]
  exact State.carries_raise (s := { s.updBatch b.id _ with endCount := s.endCount + 1 }) _ m

theorem State.carries_endBatches (m : PortId) : (s.port m).Carries (s.endBatches.port m) :=
  foldl_keeps (P := fun t : State => (s.port m).Carries (t.port m)) (fun _ b h => h.trans (State.carries_endBatch b m))
    (Port.Carries.refl _)

/-! ### A committed batch -/

theorem State.setRunning_frame (b : Batch) : ∃ sl po ba, s.setRunning b = { s with slots := sl, pool := po, batches := ba } := by
  rw [State.setRunning, (s.chains_foldl b.staging).rest]
  exact ⟨_, _, _, rfl⟩

theorem State.slot_setRunning (b : Batch) (n : SlotId) : (s.setRunning b).slot n = { s.slot n with
    chain := (s.slot n).chain ++ b.staging.filter fun id => (s.seg id).any fun g => decide (g.slot = n) } :=
  (s.chains_foldl b.staging).slot n

/-- What a commit judges of the slots it leaves as the commit set them running. -/
theorem State.rejudged_commit (b : Batch) : ∃ u, (s.setRunning b).Rejudged u ∧ s.commit b = u.endBatches :=
  ⟨_, State.rejudged_judgeAll _, rfl⟩

theorem State.slot_endBatches (n : SlotId) : s.endBatches.slot n = s.slot n := by
  obtain ⟨_, _, _, _, _, e⟩ := s.endBatches_eq
  rw [e]
  rfl

theorem State.cell_endBatches (c : CellId) : s.endBatches.cell c = s.cell c := by
  obtain ⟨_, _, _, _, _, e⟩ := s.endBatches_eq
  rw [e]
  rfl

theorem State.free_endBatches : s.endBatches.free = s.free := by
  obtain ⟨_, _, _, _, _, e⟩ := s.endBatches_eq
  rw [e]

theorem State.chain_commit (b : Batch) (n : SlotId) : ((s.commit b).slot n).chain = (s.slot n).chain ++
    b.staging.filter fun id => (s.seg id).any fun g => decide (g.slot = n) := by
  obtain ⟨u, hu, e⟩ := s.rejudged_commit b
  rw [e, State.slot_endBatches, hu.chain, s.slot_setRunning]

theorem State.stand_commit (b : Batch) (n : SlotId) :
    ((s.commit b).slot n).stand = (s.slot n).stand ∧ ((s.commit b).slot n).fault = (s.slot n).fault := by
  obtain ⟨u, hu, e⟩ := s.rejudged_commit b
  rw [e, State.slot_endBatches, hu.stand, hu.fault, s.slot_setRunning]
  exact ⟨rfl, rfl⟩

theorem State.held_commit (b : Batch) (c : CellId) (n : SlotId) :
    ((s.commit b).cell c).owner = .held n ↔ (s.cell c).owner = .held n := by
  obtain ⟨u, hu, e⟩ := s.rejudged_commit b
  obtain ⟨_, _, _, hs⟩ := s.setRunning_frame b
  rw [e, State.cell_endBatches, hu.held, hs]
  rfl

theorem State.free_commit (b : Batch) : (s.commit b).free = s.free := by
  obtain ⟨u, hu, e⟩ := s.rejudged_commit b
  obtain ⟨_, _, _, hs⟩ := s.setRunning_frame b
  rw [e, State.free_endBatches, hu.free, hs]

theorem State.carries_commit (b : Batch) (m : PortId) : (s.port m).Carries ((s.commit b).port m) := by
  obtain ⟨u, hu, e⟩ := s.rejudged_commit b
  obtain ⟨_, _, _, hs⟩ := s.setRunning_frame b
  have hp : u.port m = s.port m := by rw [State.port, hu.ports, hs]; rfl
  rw [e, ← hp]
  exact State.carries_endBatches m

/-- The committed batch is RUNNING with its loaded count pending, or DONE with none loaded (R59, R60). -/
theorem State.batchOf_commit {b : Batch} (ho : s.openBatch = some b) (hid : s.IdsOnce) :
    (b.loaded ≠ 0 → (s.commit b).batchOf b.id = some { b with state := .running, pending := b.loaded, staging := [] }) ∧
      (b.loaded = 0 → ∃ o, (s.commit b).batchOf b.id =
        some { b with state := .done, pending := 0, staging := [], endOrder := some o }) := by
  obtain ⟨⟨p, hp⟩, -⟩ := State.openBatch_mem ho
  obtain ⟨u, hu, e⟩ := s.rejudged_commit b
  have hids : u.IdsOnce := by
    rw [State.IdsOnce, hu.batches]
    exact hid.setRunning ho
  have hget : u.batches.get p = some { b with state := .running, pending := b.loaded, staging := [] } := by
    rw [hu.batches]
    exact (hid.get_setRunning ho p _).2 (.inl ⟨hp, rfl⟩)
  obtain ⟨hend, hkeep⟩ := (hids.get_endBatches p).2 _ hget
  rw [e]
  refine ⟨fun h0 => ?_, fun h0 => ?_⟩
  · exact hids.endBatches.batchOf (hkeep (by simp [Batch.finished, h0]))
  · obtain ⟨k, hk⟩ := hend (by simp [Batch.finished, h0])
    refine ⟨k, (hids.endBatches.batchOf hk).trans ?_⟩
    simp [Batch.ended, h0]

/-! ### The outcomes of COMMIT_BATCH (R58) -/

theorem commitBatchRule_flag {id : Nat} (h : s.loadError = true) : commitBatchRule id s = s.reply .loadErrorSet := if_pos h

section
variable {b : Batch} (h : s.loadError = false) (ho : s.openBatch = some b)
include h ho

theorem commitBatchRule_retired {n : SlotId} (hn : s.retiredStaged b = some n) :
    commitBatchRule b.id s = { state := s, answer := some (.retired, .slotNamed n) } := by
  simp [commitBatchRule, h, ho, hn]

theorem commitBatchRule_crowded {n : SlotId} (hr : s.retiredStaged b = none) (hn : s.crowdedStaged b = some n) :
    commitBatchRule b.id s = { state := s, answer := some (.chainFull, .slotNamed n) } := by
  simp [commitBatchRule, h, ho, hr, hn]

theorem commitBatchRule_ok (hr : s.retiredStaged b = none) (hc : s.crowdedStaged b = none) :
    commitBatchRule b.id s = (s.commit b).reply .ok := by
  simp [commitBatchRule, h, ho, hr, hc]

end

/-- The lowest RETIRED slot with staged segments. -/
theorem State.retiredStaged_eq_some {b : Batch} {n : SlotId} (hn : 0 < s.stagedFor b n) (hr : (s.slot n).state = .retired)
    (hm : ∀ m, m < n → 0 < s.stagedFor b m → (s.slot m).state ≠ .retired) : s.retiredStaged b = some n :=
  find?_finRange_eq_some.2 ⟨by simp [hn, hr], fun m hlt => by
    by_cases h0 : 0 < s.stagedFor b m
    · simp [hm m hlt h0]
    · simp [h0]⟩

theorem State.retiredStaged_eq_none {b : Batch} (h : ∀ n, 0 < s.stagedFor b n → (s.slot n).state ≠ .retired) :
    s.retiredStaged b = none :=
  List.find?_eq_none.2 fun n _ => by
    by_cases h0 : 0 < s.stagedFor b n
    · simp [h n h0]
    · simp [h0]

/-- The lowest slot whose chain has no room for its staged segments. -/
theorem State.crowdedStaged_eq_some {b : Batch} {n : SlotId} (hn : 0 < s.stagedFor b n)
    (hr : 32 < s.stagedFor b n + (s.slot n).chain.length)
    (hm : ∀ m, m < n → 0 < s.stagedFor b m → s.stagedFor b m + (s.slot m).chain.length ≤ 32) : s.crowdedStaged b = some n :=
  find?_finRange_eq_some.2 ⟨by simp [hn, hr, chainRoom], fun m hlt => by
    by_cases h0 : 0 < s.stagedFor b m
    · simp [Nat.not_lt.2 (hm m hlt h0), chainRoom]
    · simp [h0]⟩

theorem State.crowdedStaged_eq_none {b : Batch} (h : ∀ n, 0 < s.stagedFor b n → s.stagedFor b n + (s.slot n).chain.length ≤ 32) :
    s.crowdedStaged b = none :=
  List.find?_eq_none.2 fun n _ => by
    by_cases h0 : 0 < s.stagedFor b n
    · simp [Nat.not_lt.2 (h n h0), chainRoom]
    · simp [h0]

end

/-- Settles O23: the rule's outcomes in their order, and what `State.commit` leaves. -/
theorem commitJudged : Obligations.CommitJudged := by
  refine ⟨fun s p seq id hT h => ⟨_, rfl, hT.completes_same seq _ (commitBatchRule_flag h)⟩, fun s p seq b hT ho h => ⟨fun n hn hr hm => ?_,
    fun hr => ⟨fun n hn hc hm => ?_, fun hc hid => ?_⟩⟩⟩
  · have hrule := commitBatchRule_retired (s := s.takeInHand p ReqCode.commitBatch.number seq) h ho
      (State.retiredStaged_eq_some hn hr hm)
    exact ⟨_, rfl, hT.completes_same seq _ hrule⟩
  · have hrule := commitBatchRule_crowded (s := s.takeInHand p ReqCode.commitBatch.number seq) h ho
      (State.retiredStaged_eq_none hr) (State.crowdedStaged_eq_some hn hc hm)
    exact ⟨_, rfl, hT.completes_same seq _ hrule⟩
  · have hrule := commitBatchRule_ok (s := s.takeInHand p ReqCode.commitBatch.number seq) h ho (State.retiredStaged_eq_none hr)
      (State.crowdedStaged_eq_none hc)
    have hb := State.batchOf_commit (s := s.takeInHand p ReqCode.commitBatch.number seq) ho hid
    exact ⟨_, _, rfl, State.request_completes hT seq _ hrule fun m => State.carries_commit b m, State.chain_commit b,
      State.stand_commit b, State.held_commit b, State.free_commit b, hb⟩

end Sys2Proof.Machine
end


section
/-! SUPPORT. ABORT_BATCH as its answer and its effect are judged (R61, R62): what the ports, the slots and the batch's record keep
from the abort's start to its end. -/

namespace Sys2Proof.Machine

/-! ### A port through the event of its request -/

/-- Port `a` became `b`: with the same request in hand, and answers only behind those made before. -/
structure Port.Advances (a b : Port) : Prop where
  lined : ∃ l, b.lined = a.lined ++ l
  busy : b.busy = a.busy
  inHand : b.inHand = a.inHand

theorem Port.Advances.refl (a : Port) : a.Advances a := ⟨⟨[], (List.append_nil _).symm⟩, rfl, rfl⟩

theorem Port.Advances.trans {a b c : Port} (h : a.Advances b) (k : b.Advances c) : a.Advances c := by
  obtain ⟨l, hl⟩ := h.lined
  obtain ⟨m, hm⟩ := k.lined
  exact ⟨⟨l ++ m, by rw [hm, hl, List.append_assoc]⟩, k.busy.trans h.busy, k.inHand.trans h.inHand⟩

theorem Port.Carries.advances {a b : Port} (h : a.Carries b) : a.Advances b :=
  ⟨⟨[], by rw [h.answers, List.append_nil]⟩, h.busy, h.inHand⟩

theorem State.advances_answer (s : State) (p m : PortId) (r : Result) (f : AnswerFields) :
    (s.port m).Advances ((s.answer p r f).port m) := by
  by_cases e : p = m
  · subst e
    rw [State.answer, State.port_updPort_self]
    split
    · exact ⟨⟨_, (List.append_assoc _ _ _).symm⟩, rfl, rfl⟩
    · exact .refl _
  · rw [State.port_answer_ne r f e]
    exact .refl _

/-! ### What an abort keeps -/

/-- The records of two states, place by place: no id changes, and an ABORTING batch stays so or is ABORTED with nothing pending. -/
structure State.SameRecords (s t : State) : Prop where
  ids : t.IdsOnce
  record : ∀ i x, s.batches.get i = some x → x.state = .aborting → ∃ y, t.batches.get i = some y ∧ y.id = x.id ∧
    y.loaded = x.loaded ∧ (y.state = .aborting ∨ (y.state = .aborted ∧ y.pending = 0))

/-- From `s` to `t` port `p` kept its request, no robot moved, chains only lost, and an ABORTING batch was not lost. -/
structure State.Aborts (p : PortId) (s t : State) : Prop extends s.SameRecords t where
  port : (s.port p).Advances (t.port p)
  stand : ∀ n, (t.slot n).stand = (s.slot n).stand
  chain : s.ChainsIn t

theorem State.IdsOnce.map {s t : State} (h : s.IdsOnce) {f : Batch → Batch} (hf : ∀ b, (f b).id = b.id)
    (ht : ∀ i, t.batches.get i = (s.batches.get i).map f) : t.IdsOnce := by
  intro i j x y hx hy e
  rw [ht, Option.map_eq_some_iff] at hx hy
  obtain ⟨x', hx', rfl⟩ := hx
  obtain ⟨y', hy', rfl⟩ := hy
  exact h i j x' y' hx' hy' (by rwa [hf, hf] at e)

theorem State.SameRecords.count {s t : State} (h : s.SameRecords t) (b : Nat) (o : SegOutcome) :
    s.SameRecords (t.updBatch b (Batch.count o)) := by
  have hget : ∀ i, (t.updBatch b (Batch.count o)).batches.get i =
      (t.batches.get i).map fun x => if x.id = b then x.count o else x := fun i => Table.get_map _ _ _
  refine ⟨h.ids.map (fun x => ?_) hget, fun i x hx hst => ?_⟩
  · split
    · exact (x.count_frame o).1
    · rfl
  · obtain ⟨y, hy, hid, hl, hs⟩ := h.record i x hx hst
    refine ⟨if y.id = b then y.count o else y, by rw [hget, hy]; rfl, ?_⟩
    split
    · obtain ⟨c1, c2, c3, -, -, c6⟩ := y.count_frame o
      refine ⟨c1.trans hid, c3.trans hl, ?_⟩
      rw [c2, c6]
      exact hs.imp_right fun ⟨h1, h2⟩ => ⟨h1, by rw [h2]⟩
    · exact ⟨hid, hl, hs⟩

theorem State.SameRecords.endBatches {s t : State} (h : s.SameRecords t) {i : Fin 4} {x : Batch} (hx : s.batches.get i = some x)
    (hst : x.state = .aborting) : ∃ y, t.endBatches.batches.get i = some y ∧ y.id = x.id ∧ y.loaded = x.loaded ∧
      ((y.state = .aborting ∧ y.pending ≠ 0) ∨ (y.state = .aborted ∧ y.pending = 0)) := by
  obtain ⟨y, hy, hid, hl, hs⟩ := h.record i x hx hst
  obtain ⟨hend, hkeep⟩ := (h.ids.get_endBatches i).2 y hy
  obtain ha | ha := hs
  · by_cases hp : y.pending = 0
    · obtain ⟨k, hk⟩ := hend (Batch.finished_iff.2 ⟨hp, .inr ha⟩)
      exact ⟨_, hk, hid, hl, .inr ⟨by simp [Batch.ended, ha], hp⟩⟩
    · exact ⟨y, hkeep (by simp [Batch.finished, hp]), hid, hl, .inl ⟨ha, hp⟩⟩
  · exact ⟨y, hkeep (by simp [Batch.finished, ha.1]), hid, hl, .inr ha⟩

theorem State.SameRecords.of_batches {s t u : State} (h : s.SameRecords t) (hb : u.batches = t.batches) : s.SameRecords u where
  ids := by rw [State.IdsOnce, hb]; exact h.ids
  record i x hx hst := by rw [hb]; exact h.record i x hx hst

section
variable {p : PortId} {s t u : State} (h : State.Aborts p s t)
include h

/-- Batches, ports and slots as they were. -/
theorem State.Aborts.of_eq (hb : u.batches = t.batches) (hp : u.ports = t.ports) (hs : u.slots = t.slots) : State.Aborts p s u where
  toSameRecords := h.toSameRecords.of_batches hb
  port := by
    have e : u.port p = t.port p := congrArg (fun x : Table 3 Port => x.get p) hp
    rw [e]
    exact h.port
  stand n := by rw [State.slot, hs]; exact h.stand n
  chain n := by rw [State.slot, hs]; exact h.chain n

theorem State.Aborts.updSlot (n : SlotId) {f : Slot → Slot} (hf : SlotOk f) : State.Aborts p s (t.updSlot n f) where
  toSameRecords := h.toSameRecords.of_batches rfl
  port := h.port
  stand m := by
    by_cases e : n = m
    · subst e
      rw [State.slot_updSlot_self, hf.stand]
      exact h.stand n
    · rw [State.slot_updSlot_ne _ _ e]
      exact h.stand m
  chain m := by
    by_cases e : n = m
    · subst e
      rw [State.slot_updSlot_self]
      exact (hf.chain _).trans (h.chain n)
    · rw [State.slot_updSlot_ne _ _ e]
      exact h.chain m

theorem State.Aborts.of_port (hb : u.batches = t.batches) (hp : (t.port p).Advances (u.port p)) (hs : u.slots = t.slots) :
    State.Aborts p s u where
  toSameRecords := h.toSameRecords.of_batches hb
  port := h.port.trans hp
  stand n := by rw [State.slot, hs]; exact h.stand n
  chain n := by rw [State.slot, hs]; exact h.chain n

theorem State.Aborts.endBatches : State.Aborts p s t.endBatches where
  ids := h.ids.endBatches
  record i x hx hst := by
    obtain ⟨y, hy, hid, hl, hs⟩ := h.toSameRecords.endBatches hx hst
    exact ⟨y, hy, hid, hl, hs.imp_left fun ha => ha.1⟩
  port := h.port.trans (State.carries_endBatches p).advances
  stand n := by rw [State.slot_endBatches]; exact h.stand n
  chain n := by rw [State.slot_endBatches]; exact h.chain n

end

theorem calm_aborts (p : PortId) (s : State) : Calm (State.Aborts p s) where
  seg _ _ _ h := h.of_eq rfl rfl rfl
  free _ h := h.of_eq rfl rfl rfl
  scanDue _ h := h.of_eq rfl rfl rfl
  haltOut _ h := h.of_eq rfl rfl rfl
  branches _ _ h := h.of_eq rfl rfl rfl
  census _ h := h.of_eq rfl rfl rfl
  links _ _ h := h.of_eq rfl rfl rfl
  phase _ h := h.of_eq rfl rfl rfl
  sector _ _ _ h := h.of_eq rfl rfl rfl
  raise nt h := h.of_port rfl (State.carries_raise nt p).advances rfl
  answer m r f h := h.of_port rfl (State.advances_answer _ m p r f) rfl
  updSlot n _ hf h := h.updSlot n hf
  updCells _ h := h.of_eq rfl rfl rfl
  takeCells _ _ _ h := h.of_eq rfl rfl rfl
  close _ h := h.of_eq rfl rfl rfl
  queue _ _ h := h.of_eq rfl rfl rfl
  joinQueue {t} n _ h := (((h.of_eq (u := { t with queue := t.queue ++ [QEntry.fresh n] }) rfl rfl rfl)).updSlot n
    (SlotOk.state fun sl => sl.state.joined)).of_eq rfl rfl rfl
  dwell _ h := h.of_eq rfl rfl rfl
  startStop _ h := h.of_eq rfl rfl rfl
  anyBranch _ _ h := h.of_eq rfl rfl rfl
  anyLink _ _ h := h.of_eq rfl rfl rfl
  now _ h := h.of_eq rfl rfl rfl
  enter _ _ _ h := h.of_eq rfl rfl rfl
  count b o h := ⟨h.toSameRecords.count b o, h.port, h.stand, h.chain⟩
  endBatches h := h.endBatches

theorem Calm.abortSlot {P : State → Prop} (hP : Calm P) {s : State} (h : P s) (id : Nat) (n : SlotId) : P (s.abortSlot id n) := by
  have h' : P (s.abortWithdraw id n) := hP.withdrawWhere (hP.skipWhere h n _) n _
  show P (match (s.abortWithdraw id n).grantedSegs n with
    | x :: _ => if (s.grantedSegs n).head?.map (·.1) = some x.1 then s.abortWithdraw id n else (s.abortWithdraw id n).dispatch n x.1
    | [] => s.abortWithdraw id n)
  split
  · split
    · exact h'
    · exact hP.dispatch h' n _
  · exact h'

/-! ### A RUNNING batch is aborted -/

section
variable {s : State} {b : Batch} (hid : s.IdsOnce)
include hid

theorem State.aborts_abortSlots (p : PortId) : State.Aborts p (s.setAborting b) (s.abortSlots b).judgeAll := by
  have h0 : State.Aborts p (s.setAborting b) (s.setAborting b) := by
    refine ⟨⟨?_, fun i x hx hst => ⟨x, hx, rfl, rfl, .inl hst⟩⟩, .refl _, fun _ => rfl, fun _ => .refl _⟩
    refine hid.map (f := fun r => if r.id = b.id then { r with state := .aborting } else r) (fun r => ?_) fun i => Table.get_map _ _ _
    split <;> rfl
  exact (calm_aborts p _).judgeAll (foldl_keeps (P := State.Aborts p (s.setAborting b))
    (fun _ n h => (calm_aborts p _).abortSlot h b.id n) h0)

theorem State.aborts_abortBatch (p : PortId) : State.Aborts p (s.setAborting b) (s.abortBatch b) :=
  (calm_aborts p _).finish (State.aborts_abortSlots hid p).endBatches s

/-- The record of the batch behind its abort (R61, R62). -/
theorem State.batchOf_abortBatch {id : Nat} (hb : s.batchOf id = some b) : ∃ x, (s.abortBatch b).batchOf id = some x ∧ x.loaded = b.loaded ∧
    ((x.state = .aborting ∧ x.pending ≠ 0) ∨ (x.state = .aborted ∧ x.pending = 0)) := by
  obtain ⟨⟨i, hi⟩, rfl⟩ := State.batchOf_mem hb
  have hset : (s.setAborting b).batches.get i = some { b with state := .aborting } := by
    rw [State.setAborting, State.updBatch, Table.get_map, hi, Option.map_some, if_pos rfl]
  have h := State.aborts_abortSlots (b := b) hid 0
  obtain ⟨y, hy, hyid, hl, hs⟩ := h.toSameRecords.endBatches hset rfl
  have hfinish : (s.abortBatch b).batchOf y.id = some y := by
    rw [State.abortBatch_eq, State.batchOf_of_eq (State.rests_finish (s.abortSlots b).judgeAll.endBatches s).batches]
    exact h.ids.endBatches.batchOf hy
  exact ⟨y, hyid ▸ hfinish, hl, hs⟩

end

/-! ### The answer at the end -/

section
variable {s v : State} {p : PortId} {c : ReqCode} {seq : Nat}

/-- The answer OK is the last of those made in the event of its request. -/
theorem State.answersLast_ok (h : ((s.takeInHand p c.number seq).port p).Advances (v.port p)) :
    s.AnswersLast ((v.reply .ok).make p).kickPorts p (c.answer seq .ok .none) := by
  rw [State.takeInHand, State.port_updPort_self] at h
  obtain ⟨⟨l, hlined⟩, hbusy, hhand⟩ := h
  refine ⟨⟨l, ?_⟩, ?_⟩
  · rw [State.kickPorts_lined]
    refine (State.lined_answer p .ok .none hhand).trans ?_
    rw [State.lined_eq, hlined]
    rfl
  · rw [State.kickPorts_busy]
    exact (State.busy_answer p p .ok .none).trans hbusy

theorem State.reply_frame (v : State) (p : PortId) : ((v.reply .ok).make p).kickPorts.slots = v.slots ∧
    ((v.reply .ok).make p).kickPorts.batches = v.batches := by
  obtain ⟨_, _, e⟩ := ((v.reply .ok).make p).kickPorts_eq
  rw [e]
  exact ⟨rfl, rfl⟩

end

/-- Settles O24: the rule's outcomes by the state of the record, and what `State.abortBatch` leaves. -/
theorem abortJudged : Obligations.AbortJudged := by
  intro s p seq id hT
  refine ⟨fun hb => ?_, fun b hb hst => ?_, fun b hb hst => ?_, fun b hb hst hid => ?_⟩
  · have hrule : abortBatchRule id (s.takeInHand p ReqCode.abortBatch.number seq) =
        (s.takeInHand p ReqCode.abortBatch.number seq).reply .noBatch := by
      rw [abortBatchRule, show (s.takeInHand p ReqCode.abortBatch.number seq).batchOf id = none from hb]
    exact ⟨_, rfl, hT.completes_same seq _ hrule⟩
  · have hrule : abortBatchRule id (s.takeInHand p ReqCode.abortBatch.number seq) =
        (s.takeInHand p ReqCode.abortBatch.number seq).reply .state := by
      rw [abortBatchRule, show (s.takeInHand p ReqCode.abortBatch.number seq).batchOf id = some b from hb]
      obtain e | e | e := hst <;> simp only [e]
    exact ⟨_, rfl, hT.completes_same seq _ hrule⟩
  · have hrule : abortBatchRule id (s.takeInHand p ReqCode.abortBatch.number seq) =
        (s.takeInHand p ReqCode.abortBatch.number seq).reply .ok := by
      rw [abortBatchRule, show (s.takeInHand p ReqCode.abortBatch.number seq).batchOf id = some b from hb]
      simp only [hst]
    exact ⟨_, rfl, hT.completes_same seq _ hrule⟩
  · have hb' : (s.takeInHand p ReqCode.abortBatch.number seq).batchOf id = some b := hb
    have ht := State.request_takes hT seq (abortBatchRule id)
    rw [abortBatchRule_running hb' hst] at ht
    have hA := State.aborts_abortBatch (s := s.takeInHand p ReqCode.abortBatch.number seq) (b := b) hid p
    obtain ⟨x, hx, hl, hs⟩ := State.batchOf_abortBatch (s := s.takeInHand p ReqCode.abortBatch.number seq) hid hb'
    obtain ⟨hslots, hbatches⟩ := State.reply_frame ((s.takeInHand p ReqCode.abortBatch.number seq).abortBatch b) p
    refine ⟨_, x, rfl, ?_, ?_, hl, hs, fun n => ?_, State.sameSetting_of_exec (c := .abortBatch p seq id) rfl rfl⟩
    · rw [ht]
      exact State.answersLast_ok hA.port
    · rw [ht, State.batchOf_of_eq hbatches]
      exact hx
    · rw [ht, State.slot, hslots]
      exact ⟨hA.stand n, hA.chain n⟩

end Sys2Proof.Machine
end

section
/-! SUPPORT. How the sector state and the grants of segments move in one event (R67, R68, R156): `State.Moves` is what every command
but RESUME, STOP, the STOP line and the resets does to them, said once for each shared operation. -/

namespace Sys2Proof.Machine

/-! ### The arrows that need no RESUME and no STOP -/

/-- The arrows of R67 that an event follows of itself: start-up ends, the halts finish, a contact fault or a HOLD ends RUN. -/
inductive SectorState.Drifts : SectorState → SectorState → Prop where
  | same (a : SectorState) : Drifts a a
  | stopped : Drifts .stopping .stopped
  | started : Drifts .starting .hold
  | startedStopped : Drifts .starting .stopped
  | held : Drifts .run .hold

theorem SectorState.Drifts.trans {a b c : SectorState} (h : Drifts a b) (k : Drifts b c) : Drifts a c := by
  cases h <;> cases k <;> constructor

theorem SectorState.Drifts.arrow {a b : SectorState} (h : Drifts a b) : sectorArrow a b = true := by
  cases h with
  | same => cases a <;> rfl
  | _ => rfl

theorem SectorState.Drifts.to_run {a : SectorState} (h : Drifts a .run) : a = .run := by
  cases h
  rfl

/-- The arrows that end outside RUN and HOLD begin there. -/
theorem SectorState.Drifts.stays_out {a b : SectorState} (h : Drifts a b) (hr : b ≠ .run) (hh : b ≠ .hold) : a ≠ .run ∧ a ≠ .hold := by
  cases h with
  | same => exact ⟨hr, hh⟩
  | stopped => decide
  | startedStopped => decide
  | started => exact absurd rfl hh
  | held => exact absurd rfl hh

/-! ### No segment newly granted -/

/-- Each segment GRANTED and unsent in `t` was so in `s`. -/
def State.NoNewGrants (s t : State) : Prop :=
  ∀ id g, t.seg id = some g → g.state = .granted → ∃ h, s.seg id = some h ∧ h.state = .granted

theorem State.NoNewGrants.refl (s : State) : s.NoNewGrants s := fun _ g hg e => ⟨g, hg, e⟩

theorem State.NoNewGrants.trans {s t u : State} (h : s.NoNewGrants t) (k : t.NoNewGrants u) : s.NoNewGrants u := by
  intro id g hg e
  obtain ⟨x, hx, ex⟩ := k id g hg e
  exact h id x hx ex

theorem State.NoNewGrants.of_pool {s t : State} (h : t.pool = s.pool) : s.NoNewGrants t := by
  intro id g hg e
  rw [State.seg, h] at hg
  exact ⟨g, hg, e⟩

theorem State.noNewGrants_updSeg (s : State) (id : SegId) {f : Segment → Segment}
    (hf : ∀ g, (f g).state = .granted → g.state = .granted) : s.NoNewGrants (s.updSeg id f) := by
  intro i g hg e
  by_cases hi : id = i
  · subst hi
    rw [State.seg_updSeg_self, Option.map_eq_some_iff] at hg
    obtain ⟨x, hx, rfl⟩ := hg
    exact ⟨x, hx, hf x e⟩
  · rw [State.seg_updSeg_ne _ _ hi] at hg
    exact ⟨g, hg, e⟩

/-! ### What an event moves -/

/-- From `s` to `t` the sector followed the arrows that need no RESUME and no STOP, and no segment was granted but in RUN. -/
structure State.Moves (s t : State) : Prop where
  sector : s.sector.Drifts t.sector
  granted : s.sector ≠ .run → s.NoNewGrants t

theorem State.Moves.refl (s : State) : s.Moves s := ⟨.same _, fun _ => .refl s⟩

theorem State.Moves.trans {s t u : State} (h : s.Moves t) (k : t.Moves u) : s.Moves u where
  sector := h.sector.trans k.sector
  granted hr := (h.granted hr).trans (k.granted fun e => hr (SectorState.Drifts.to_run (e ▸ h.sector)))

theorem State.Moves.of_eq {s t : State} (hs : t.sector = s.sector) (hp : t.pool = s.pool) : s.Moves t :=
  ⟨hs ▸ .same _, fun _ => .of_pool hp⟩

/-- A start that differs in neither sector state nor segments. -/
theorem State.Moves.since {s t u : State} (h : t.Moves u) (hs : t.sector = s.sector) (hp : t.pool = s.pool) : s.Moves u :=
  (State.Moves.of_eq hs hp).trans h

theorem State.Moves.of_run {s t : State} (hs : t.sector = s.sector) (hr : s.sector = .run) : s.Moves t :=
  ⟨hs ▸ .same _, fun h => absurd hr h⟩

theorem State.Moves.enter {s : State} {x : SectorState} (h : s.sector.Drifts x) : s.Moves { s with sector := x } :=
  ⟨h, fun _ => .of_pool rfl⟩

theorem State.Moves.foldl {α : Type} {f : State → α → State} (hf : ∀ (s : State) a, s.Moves (f s a)) (l : List α) (s : State) :
    s.Moves (l.foldl f s) := by
  induction l generalizing s with
  | nil => exact .refl s
  | cons a l ih => exact (hf s a).trans (ih _)

/-- Outside RUN and HOLD nothing stays GRANTED and unsent, where nothing was. -/
theorem State.Moves.noneGrantedStopped {s t : State} (h : s.Moves t) (hs : s.NoneGrantedStopped) : t.NoneGrantedStopped := by
  intro hr hh id g hg e
  obtain ⟨hr', hh'⟩ := h.sector.stays_out hr hh
  obtain ⟨x, hx, ex⟩ := h.granted hr' id g hg e
  exact hs hr' hh' id x hx ex

/-! ### Withdrawals: the sector, the clocks and the senses stay -/

/-- From `s` to `t` segments closed or went back to CHAINED, claims were withdrawn and the grant queue judged. -/
structure State.Withdraws (s t : State) : Prop where
  rest : t = { s with
    slots := t.slots, cells := t.cells, queue := t.queue, links := t.links, scanDue := t.scanDue, pool := t.pool,
    branches := t.branches, batches := t.batches, ports := t.ports }
  granted : s.NoNewGrants t

theorem State.Withdraws.refl (s : State) : s.Withdraws s := ⟨rfl, .refl s⟩

theorem State.Withdraws.trans {s t u : State} (h : s.Withdraws t) (k : t.Withdraws u) : s.Withdraws u where
  rest := k.rest.trans (congrArg (fun v : State => { v with
    slots := u.slots, cells := u.cells, queue := u.queue, links := u.links, scanDue := u.scanDue, pool := u.pool,
    branches := u.branches, batches := u.batches, ports := u.ports }) h.rest)
  granted := h.granted.trans k.granted

theorem State.Withdraws.foldl {α : Type} {f : State → α → State} (hf : ∀ (s : State) a, s.Withdraws (f s a)) (l : List α)
    (s : State) : s.Withdraws (l.foldl f s) := by
  induction l generalizing s with
  | nil => exact .refl s
  | cons a l ih => exact (hf s a).trans (ih _)

theorem State.Rejudged.withdraws {s t : State} (h : s.Rejudged t) : s.Withdraws t := by
  refine ⟨?_, .of_pool h.pool⟩
  rw [h.rest]

section
variable {s t : State} (h : s.Withdraws t)
include h

theorem State.Withdraws.sector : t.sector = s.sector := by rw [h.rest]
theorem State.Withdraws.dwell : t.dwell = s.dwell := by rw [h.rest]
theorem State.Withdraws.senses : t.senses = s.senses := by rw [h.rest]
theorem State.Withdraws.moves : s.Moves t := ⟨h.sector ▸ .same _, fun _ => h.granted⟩

end

section
variable (s : State)

theorem State.withdraws_updBranch (b : BranchId) (f : Branch → Branch) : s.Withdraws (s.updBranch b f) := ⟨rfl, .of_pool rfl⟩
theorem State.withdraws_updBatch (id : Nat) (f : Batch → Batch) : s.Withdraws (s.updBatch id f) := ⟨rfl, .of_pool rfl⟩
theorem State.withdraws_updSlot (n : SlotId) (f : Slot → Slot) : s.Withdraws (s.updSlot n f) := ⟨rfl, .of_pool rfl⟩
theorem State.withdraws_rehold (n : SlotId) : s.Withdraws (s.rehold n) := ⟨rfl, .of_pool rfl⟩

theorem State.withdraws_close (id : SegId) : s.Withdraws { s with pool := s.pool.set id none } := by
  refine ⟨rfl, fun i g hg e => ⟨g, ?_, e⟩⟩
  rw [State.seg, Table.get_set] at hg
  split at hg
  · cases hg
  · exact hg

theorem State.withdraws_closeNotice (g : Segment) (o : SegOutcome) : s.Withdraws (s.closeNotice g o) := by
  cases o <;> exact ⟨rfl, .of_pool rfl⟩

theorem State.withdraws_closeSeg (id : SegId) (o : SegOutcome) : s.Withdraws (s.closeSeg id o) := by
  have hclose (g : Segment) (u : State) : u.Withdraws (State.updSlot
      { ((u.closeNotice g o).withdrawClaimFor g.slot id).updBranch (branchOf g.slot) fun br => br.forget id with
        pool := ((u.closeNotice g o).withdrawClaimFor g.slot id).pool.set id none } g.slot fun sl =>
          { sl with chain := sl.chain.filter fun i => decide (i ≠ id) }) :=
    ((((u.withdraws_closeNotice g o).trans (State.rejudged_withdrawClaimFor _ _ _).withdraws).trans
      (State.withdraws_updBranch _ _ _)).trans (State.withdraws_close _ id)).trans (State.withdraws_updSlot _ _ _)
  unfold State.closeSeg
  split
  · exact .refl s
  · dsimp only
    split
    · exact (s.withdraws_updBatch _ _).trans (hclose _ _)
    · exact hclose _ s

theorem State.withdraws_skipWhere (n : SlotId) (p : Segment → Option SkipReason) : s.Withdraws (s.skipWhere n p) := by
  refine .foldl (fun s x => ?_) _ s
  split
  · exact s.withdraws_closeSeg _ _
  · exact .refl s

theorem State.withdraws_removeOrder (n : SlotId) (id : SegId) : s.Withdraws (s.removeOrder n id) := s.withdraws_updBranch _ _

theorem State.withdraws_withdrawSeg (n : SlotId) (id : SegId) (g : Segment) : s.Withdraws (s.withdrawSeg n id g) := by
  unfold State.withdrawSeg
  dsimp only
  split
  · exact (s.withdraws_removeOrder n id).trans (State.withdraws_closeSeg _ _ _)
  · exact (s.withdraws_removeOrder n id).trans ⟨rfl, State.noNewGrants_updSeg _ _ fun _ e => by cases e⟩

theorem State.withdraws_withdrawGranted (n : SlotId) : s.Withdraws (s.withdrawGranted n) :=
  .foldl (fun s (x : SegId × Segment) => s.withdraws_withdrawSeg n x.1 x.2) _ s

theorem State.withdraws_withdrawWhere (n : SlotId) (p : Segment → Bool) : s.Withdraws (s.withdrawWhere n p) := by
  have hpicked (l : List (SegId × Segment)) : s.Withdraws ((l.foldl (fun s x => s.withdrawSeg n x.1 x.2) s).rehold n) :=
    (State.Withdraws.foldl (fun s (x : SegId × Segment) => s.withdraws_withdrawSeg n x.1 x.2) l s).trans
      (State.withdraws_rehold _ n)
  unfold State.withdrawWhere
  dsimp only
  split
  · exact .refl s
  · split
    · exact (hpicked _).trans (State.rejudged_settleState _ n).withdraws
    · exact hpicked _

theorem State.withdraws_holdWithdrawals : s.Withdraws s.holdWithdrawals :=
  ((State.Withdraws.foldl (fun s n => s.withdraws_withdrawWhere n fun g => !g.continuation) allSlots s).trans
    (State.rejudged_withdrawClaims _).withdraws).trans (State.rejudged_judgeAll _).withdraws

end
end Sys2Proof.Machine
end

section
/-! SUPPORT. The sector and the grants through ends of segments, buses, batches, scans and border frames: each moves them as
`State.Moves` allows. -/

namespace Sys2Proof.Machine

/-! ### Ends of segments -/

section
variable (s : State)

theorem State.moves_updSlot (n : SlotId) (f : Slot → Slot) : s.Moves (s.updSlot n f) := .of_eq rfl rfl
theorem State.moves_updCells (f : Nat → Cell → Cell) : s.Moves (s.updCells f) := .of_eq rfl rfl
theorem State.moves_takeCells (n : SlotId) (l : List CellId) : s.Moves (s.takeCells n l) := .of_eq rfl rfl
theorem State.moves_updBranch (b : BranchId) (f : Branch → Branch) : s.Moves (s.updBranch b f) := .of_eq rfl rfl
theorem State.moves_updLink (k : LinkId) (f : Link → Link) : s.Moves (s.updLink k f) := .of_eq rfl rfl
theorem State.moves_updEntry (n : SlotId) (f : QEntry → QEntry) : s.Moves (s.updEntry n f) := .of_eq rfl rfl
theorem State.moves_raise (nt : Notice) : s.Moves (s.raise nt) := .of_eq rfl rfl
theorem State.moves_causeScan : s.Moves s.causeScan := .of_eq rfl rfl
theorem State.moves_settleCells (n : SlotId) : s.Moves (s.settleCells n) := .of_eq rfl rfl
theorem State.moves_settleState (n : SlotId) : s.Moves (s.settleState n) := .of_eq rfl rfl
theorem State.moves_judge (n : SlotId) : s.Moves (s.judge n) := (s.rejudged_judge n).withdraws.moves
theorem State.moves_judgeAll : s.Moves s.judgeAll := s.rejudged_judgeAll.withdraws.moves
theorem State.moves_closeSeg (id : SegId) (o : SegOutcome) : s.Moves (s.closeSeg id o) := (s.withdraws_closeSeg id o).moves
theorem State.moves_withdrawGranted (n : SlotId) : s.Moves (s.withdrawGranted n) := (s.withdraws_withdrawGranted n).moves

theorem State.moves_endBatches : s.Moves s.endBatches := by
  obtain ⟨_, _, _, _, _, e⟩ := s.endBatches_eq
  rw [e]
  exact .of_eq rfl rfl

theorem State.moves_moveStand (n : SlotId) (st : Stand) : s.Moves (s.moveStand n st) := by
  refine .of_eq ?_ (s.pool_moveStand n st)
  unfold State.moveStand
  dsimp only
  repeat' split
  all_goals rfl

theorem State.moves_segActive (id : SegId) : s.Moves (s.updSeg id fun g => { g with state := .active, continuation := false }) :=
  ⟨.same _, fun _ => s.noNewGrants_updSeg id fun _ e => by cases e⟩

theorem State.moves_segMarked (id : SegId) : s.Moves (s.updSeg id fun g => { g with continuation := true }) :=
  ⟨.same _, fun _ => s.noNewGrants_updSeg id fun _ h => h⟩

theorem State.moves_dispatch (n : SlotId) (id : SegId) : s.Moves (s.dispatch n id) := by
  unfold State.dispatch
  split
  · exact .refl s
  · rename_i g _
    have hwork := s.moves_updSlot n fun sl => { sl with state := g.body.workState }
    dsimp only
    split
    · exact hwork.trans ((State.moves_segActive _ _).since rfl rfl)
    · exact hwork.trans (State.moves_updBranch _ _ _)

theorem State.moves_faultSlot (n : SlotId) (c : FaultCode) : s.Moves (s.faultSlot n c) := by
  unfold State.faultSlot
  split
  · exact .refl s
  · exact (((s.rejudged_leaveQueue n).withdraws.moves.trans (State.moves_updSlot _ _ _)).trans (State.moves_raise _ _)).trans
      (State.withdraws_skipWhere _ n _).moves

theorem State.moves_nextSeg (n : SlotId) : s.Moves (s.nextSeg n) := by
  unfold State.nextSeg
  split
  · exact s.moves_dispatch n _
  · exact s.moves_settleState n

theorem State.moves_doneSeg (n : SlotId) (id : SegId) (g : Segment) : s.Moves (s.doneSeg n id g) := by
  have hclosed (st : Stand) : s.Moves ((s.moveStand n st).closeSeg id .done) :=
    (s.moves_moveStand n st).trans (State.moves_closeSeg _ id .done)
  unfold State.doneSeg
  split
  · exact ((hclosed _).trans (State.moves_settleCells _ n)).trans (State.moves_nextSeg _ n)
  · exact (((hclosed _).trans (State.moves_withdrawGranted _ n)).trans (State.moves_faultSlot _ n _)).trans
      (State.moves_settleCells _ n)

theorem State.moves_skipRule (n : SlotId) (b : Option Nat) : s.Moves (s.skipRule n b) := by
  unfold State.skipRule
  split
  · exact (s.withdraws_skipWhere n _).moves
  · exact .refl s

theorem State.moves_failSeg (n : SlotId) (id : SegId) (g : Segment) (r : FailReason) (x y : Int) :
    s.Moves (s.failSeg n id g r x y) := by
  have hclosed (st : Stand) : s.Moves ((((s.moveStand n st).closeSeg id (.failed r)).skipRule n g.batch).withdrawGranted n) :=
    (((s.moves_moveStand n st).trans (State.moves_closeSeg _ id _)).trans (State.moves_skipRule _ n _)).trans
      (State.moves_withdrawGranted _ n)
  unfold State.failSeg
  dsimp only
  split
  · exact ((hclosed _).trans (State.moves_faultSlot _ n _)).trans (State.moves_settleCells _ n)
  · exact ((hclosed _).trans (State.moves_settleCells _ n)).trans (State.moves_settleState _ n)

theorem State.moves_applyOutcome (b : BranchId) (d : DropId) (id : SegId) (x y : Bool) (o : SegOutcome) (dt df : Int) :
    s.Moves (s.applyOutcome b d id x y o dt df) := by
  have hend := s.moves_updBranch b
  unfold State.applyOutcome
  dsimp only
  split
  · exact (hend _).trans (State.moves_doneSeg _ _ _ _)
  · exact (hend _).trans (State.moves_failSeg _ _ _ _ _ _ _)
  · exact hend _

theorem State.moves_haltReported (b : BranchId) : s.Moves (s.haltReported b) := by
  unfold State.haltReported
  split
  · rename_i hs
    dsimp only
    split
    · refine (State.Moves.trans ?_ (State.moves_raise _ _)).since
        (t := { s with haltOut := s.haltOut.filter fun x => decide (x ≠ b) }) rfl rfl
      exact State.Moves.enter (by rw [hs]; exact .stopped)
    · exact .of_eq rfl rfl
  · exact .refl s

theorem State.moves_finishHalt (b : BranchId) : s.Moves (s.finishHalt b) := by
  unfold State.finishHalt
  dsimp only
  split
  · exact (s.moves_updBranch b _).trans (State.moves_haltReported _ b)
  · exact .refl s

theorem State.moves_endOutcome (b : BranchId) (n : SlotId) (o : SegOutcome) : s.Moves (s.endOutcome b n o) := by
  unfold State.endOutcome
  dsimp only
  split
  · rename_i hc
    exact (((((s.moves_judge n).trans (State.Moves.enter (by rw [hc.2]; exact .held))).trans
      (State.withdraws_holdWithdrawals _).moves).trans (State.moves_endBatches _)).trans (State.moves_raise _ _)).trans
      (State.moves_finishHalt _ b)
  · exact ((s.moves_judge n).trans (State.moves_endBatches _)).trans (State.moves_finishHalt _ b)

theorem State.moves_complete (b : BranchId) (d : DropId) (id : SegId) (x y : Bool) (o : SegOutcome) (dt df : Int) :
    s.Moves (s.complete b d id x y o dt df) :=
  (s.moves_applyOutcome b d id x y o dt df).trans (State.moves_endOutcome _ _ _ _)

theorem State.moves_endDwell (n : SlotId) : s.Moves (s.endDwell n) := by
  unfold State.endDwell
  split
  · exact (State.moves_doneSeg { s with dwell := s.dwell.set n none } n _ _).since rfl rfl
  · exact .refl s

theorem State.moves_cutDwell (n : SlotId) : s.Moves (s.cutDwell n) := by
  unfold State.cutDwell
  split
  · exact (State.moves_closeSeg { s with dwell := s.dwell.set n none } _ _).since rfl rfl
  · exact .refl s

theorem State.moves_silent (n : SlotId) : s.Moves (s.silent n) := by
  unfold State.silent
  split
  · exact .refl s
  · exact .refl s
  · exact .refl s
  · exact ((((s.moves_cutDwell n).trans (State.moves_withdrawGranted _ n)).trans (State.withdraws_rehold _ n).moves).trans
      (State.moves_faultSlot _ n _)).trans (State.moves_endBatches _)

theorem State.moves_haltOrder (b : BranchId) (o : Order) : s.Moves (s.haltOrder b o) := by
  unfold State.haltOrder
  split
  · exact (s.withdraws_removeOrder _ _).moves.trans (State.moves_applyOutcome _ _ _ _ _ _ _ _ _)
  · exact (s.withdraws_withdrawWhere _ _).moves

theorem State.moves_requestHalt (b : BranchId) : s.Moves (s.requestHalt b) :=
  (State.Moves.foldl (fun s o => s.moves_haltOrder b o) (s.branch b).orders s).trans (State.moves_updBranch _ _ _)

/-! ### The buses -/

theorem State.moves_fillPlace (b : BranchId) : s.Moves (s.fillPlace b) := by
  refine .of_eq ?_ (s.fillPlace_pool b)
  unfold State.fillPlace
  dsimp only
  repeat' split
  all_goals rfl

theorem State.moves_fillPlaces (b : BranchId) : s.Moves (s.fillPlaces b) := .foldl (fun s _ => s.moves_fillPlace b) _ s

theorem State.moves_sendOrder (b : BranchId) (o : Order) : s.Moves (s.sendOrder b o) := by
  unfold State.sendOrder
  split
  · exact s.moves_updBranch b _
  · dsimp only
    split
    · exact ((s.moves_segActive o.seg).trans (State.moves_segMarked _ _)).trans (State.moves_updBranch _ b _)
    · exact (s.moves_segActive o.seg).trans (State.moves_updBranch _ b _)

theorem State.moves_sendEntry (b : BranchId) (e : Entry) : s.Moves (s.sendEntry b e) := by
  unfold State.sendEntry
  split
  · exact s.moves_sendOrder b _
  all_goals exact .of_eq rfl rfl

theorem State.moves_startBus (b : BranchId) : s.Moves (s.startBus b) := by
  unfold State.startBus
  dsimp only
  split
  · exact .refl s
  · split
    · exact (s.moves_updBranch b _).trans (State.moves_finishHalt _ b)
    · split
      · exact (s.moves_updBranch b _).trans (State.moves_sendEntry _ b _)
      · exact .refl s

theorem State.moves_answerService (r : Result) (f : AnswerFields) : s.Moves (s.answerService r f) := by
  obtain ⟨_, e⟩ := s.answerService_eq r f
  rw [e]
  exact .of_eq rfl rfl

theorem State.moves_takeOver (b : BranchId) : s.Moves (s.takeOver b) := by
  unfold State.takeOver
  split
  · exact (s.moves_updBranch b _).trans (State.moves_answerService _ _ _)
  · exact .refl s

theorem State.moves_arbitrate (b : BranchId) : s.Moves (s.arbitrate b) :=
  (((s.moves_fillPlaces b).trans (State.moves_startBus _ b)).trans (State.moves_fillPlaces _ b)).trans (State.moves_takeOver _ b)

theorem State.moves_arbitrateAll : s.Moves s.arbitrateAll := .foldl State.moves_arbitrate _ s

theorem State.moves_endStartUp : s.Moves s.endStartUp := by
  unfold State.endStartUp
  dsimp only
  split
  · rename_i hs
    refine ((State.Moves.enter ?_).trans (State.moves_raise _ _)).since (t := { s with phase := .done }) rfl rfl
    rw [show ({ s with phase := .done } : State).sector = .starting from hs]
    split
    · exact .startedStopped
    · exact .started
  · exact .of_eq rfl rfl

theorem State.moves_advance : s.Moves s.advance := by
  unfold State.advance
  split
  · exact (State.moves_arbitrateAll (State.beginCensus { s with phase := .census } .startup)).since rfl rfl
  · split
    · exact ((State.Moves.foldl (fun s k => .of_eq (t := s.sendSync k) rfl rfl) allLinks
        { s with census := .none, phase := .sync }).trans (State.moves_endStartUp _)).since rfl rfl
    · split
      · exact (State.moves_answerService { s with census := .none } _ _).since rfl rfl
      · exact .refl s

theorem State.moves_runBuses : s.Moves s.runBuses := s.moves_arbitrateAll.trans (State.moves_advance _)

theorem State.moves_settleEvent (old : State) : s.Moves (s.settleEvent old) := by
  obtain ⟨_, _, e⟩ := s.settleEvent_frame old
  rw [e]
  exact .of_eq rfl rfl

theorem State.moves_finish (old : State) : s.Moves (s.finish old) := s.moves_runBuses.trans (State.moves_settleEvent _ old)

/-! ### Grants and scans, made in RUN alone -/

theorem State.moves_award (n : SlotId) (id : SegId) (g : Segment) (hr : s.sector = .run) : s.Moves (s.award n id g) := by
  have hgrant : s.Moves { (s.takeCells n (s.sweepOf n g)).updSeg id fun g => { g with state := .granted, continuation := false } with
      queue := s.queue.filter fun e => decide (e.slot ≠ n) } := .of_run rfl hr
  unfold State.award
  dsimp only
  split
  · exact hgrant.trans (State.moves_dispatch _ n id)
  · exact hgrant

theorem State.moves_makeClaim (n : SlotId) (id : SegId) (k : LinkId) (l : List CellId) : s.Moves (s.makeClaim n id k l) :=
  .of_eq rfl rfl

theorem State.sector_of_grantable {n : SlotId} {l : List CellId} (h : s.grantable n l = true) : s.sector = .run := by
  simp only [State.grantable, Bool.and_eq_true, decide_eq_true_eq] at h
  exact h.1.1.1

theorem State.moves_judgeEntry (n : SlotId) : s.Moves (s.judgeEntry n).1 := by
  unfold State.judgeEntry
  dsimp only
  repeat' split
  all_goals first
    | exact .refl s
    | exact s.moves_award _ _ _ (s.sector_of_grantable (by assumption))
    | exact s.moves_makeClaim _ _ _ _

theorem State.moves_scanEntries (l : List SlotId) : s.Moves (s.scanEntries l).1 := by
  induction l generalizing s with
  | nil => exact .refl s
  | cons n l ih => exact (s.moves_judgeEntry n).trans (ih _)

theorem State.moves_countPassOver (n : SlotId) : s.Moves (s.countPassOver n) := s.moves_updEntry n _

theorem State.moves_makeScan : s.Moves s.makeScan := by
  have hscan : s.Moves (State.scanEntries { s with scanDue := false } (s.queue.map QEntry.slot)).1 :=
    (State.moves_scanEntries { s with scanDue := false } _).since rfl rfl
  exact (hscan.trans (.foldl State.moves_countPassOver _ _)).trans (.foldl State.moves_judge _ _)

/-! ### Batches -/

theorem State.noNewGrants_foldlNone (l : List SegId) (t : State) (h : t.pool = l.foldl (fun t id => t.set id none) s.pool) :
    s.NoNewGrants t := by
  intro i g hg e
  rw [State.seg, h] at hg
  exact ⟨g, get_foldl_set_none hg, e⟩

theorem State.moves_abandon (b : Batch) : s.Moves (s.abandon b) := ⟨.same _, fun _ => s.noNewGrants_foldlNone b.staging _ rfl⟩

theorem State.moves_sequenceViolation : s.Moves s.sequenceViolation := by
  unfold State.sequenceViolation
  dsimp only
  split
  · exact (s.moves_abandon _).trans (.of_eq rfl rfl)
  · exact .of_eq rfl rfl

theorem State.moves_takeRecord (id : SegId) (l : List SegId) {g : Segment} (hg : g.state ≠ .granted) :
    s.Moves (s.takeRecord id l g) := by
  refine ⟨.same _, fun _ i x hx e => ?_⟩
  rw [State.seg, State.takeRecord, Table.get_set] at hx
  split at hx
  · cases hx
    exact absurd e hg
  · exact ⟨x, hx, e⟩

theorem State.moves_updBatch (id : Nat) (f : Batch → Batch) : s.Moves (s.updBatch id f) := .of_eq rfl rfl

theorem State.moves_chainStaged (id : SegId) : s.Moves (s.chainStaged id) := by
  unfold State.chainStaged
  split
  · exact State.Moves.trans (t := s.updSeg id fun g => { g with state := .chained })
      ⟨.same _, fun _ => s.noNewGrants_updSeg id fun _ e => by cases e⟩ (State.moves_updSlot _ _ _)
  · exact .refl s

theorem State.moves_commit (b : Batch) : s.Moves (s.commit b) :=
  (((State.Moves.foldl State.moves_chainStaged b.staging s).trans (State.moves_updBatch _ _ _)).trans
    (State.moves_judgeAll _)).trans (State.moves_endBatches _)

theorem State.moves_abortSlot (id : Nat) (n : SlotId) : s.Moves (s.abortSlot id n) := by
  have hwithdrawn : s.Moves (s.abortWithdraw id n) :=
    ((s.withdraws_skipWhere n _).trans (State.withdraws_withdrawWhere _ n _)).moves
  show s.Moves (match (s.abortWithdraw id n).grantedSegs n with
    | x :: _ => if (s.grantedSegs n).head?.map (·.1) = some x.1 then s.abortWithdraw id n else (s.abortWithdraw id n).dispatch n x.1
    | [] => s.abortWithdraw id n)
  split
  · split
    · exact hwithdrawn
    · exact hwithdrawn.trans (State.moves_dispatch _ n _)
  · exact hwithdrawn

theorem State.moves_abortBatch (b : Batch) : s.Moves (s.abortBatch b) :=
  ((((s.moves_updBatch b.id _).trans (.foldl (fun s n => s.moves_abortSlot b.id n) allSlots _)).trans
    (State.moves_judgeAll _)).trans (State.moves_endBatches _)).trans (State.moves_finish _ s)

/-! ### Metrology, branch lines and senses -/

theorem State.moves_placeAt (n : SlotId) (a : Theta) (f : Phi) (l : List CellId) : s.Moves (s.placeAt n a f l) := by
  have hput := (((((s.moves_moveStand n (.footprint a f l)).trans (State.moves_takeCells _ n l)).trans
    (State.moves_settleCells _ n)).trans (State.moves_updSlot _ n fun sl => { sl with state := sl.state.parkedBy }))).trans
    (State.moves_judge _ n)
  unfold State.placeAt
  dsimp only
  split
  · exact hput.trans (State.moves_causeScan _)
  · exact hput

theorem State.moves_scanWhen (b : Bool) : s.Moves (s.scanWhen b) := by
  unfold State.scanWhen
  split
  · exact s.moves_causeScan
  · exact .refl s

theorem State.moves_addTrim (n : SlotId) (b : SegBody) (tag : Nat) (id : SegId) (l : List SegId) :
    s.Moves (s.addTrim n b tag id l) :=
  ((s.moves_takeRecord id l (by simp)).trans (State.moves_updSlot _ _ _)).trans (State.moves_judge _ n)

theorem State.moves_takeSenses (n : SlotId) (x : Senses) : s.Moves (s.takeSenses n x) := by
  unfold State.takeSenses
  dsimp only
  split <;> exact .of_eq rfl rfl

theorem State.moves_freeBus (b : BranchId) : s.Moves (s.freeBus b) := s.moves_updBranch b _

theorem State.moves_takeNak (b : BranchId) (o : Order) (l : Nat) : s.Moves (s.takeNak b o l) := by
  unfold State.takeNak
  dsimp only
  repeat' split
  · exact (s.moves_freeBus b).trans (State.moves_complete _ _ _ _ _ _ _ _ _)
  · exact (s.moves_freeBus b).trans (State.moves_complete _ _ _ _ _ _ _ _ _)
  · exact (s.moves_freeBus b).trans (State.moves_updBranch _ _ _)

theorem State.moves_readStatus (b : BranchId) (d : DropId) (x : Bool) (r : StatusReply) : s.Moves (s.readStatus b d x r) := by
  unfold State.readStatus
  repeat' split
  all_goals first | exact .refl s | exact s.moves_complete _ _ _ _ _ _ _ _

theorem State.moves_takeStatus (b : BranchId) (d : DropId) (w : Purpose) (r : StatusReply) : s.Moves (s.takeStatus b d w r) := by
  have hsenses := (s.moves_freeBus b).trans (State.moves_takeSenses _ (slotOf b d) r.senses)
  unfold State.takeStatus
  dsimp only
  split
  · exact hsenses
  · exact hsenses.trans (State.moves_readStatus _ _ _ _ _)
  · exact hsenses.trans (State.moves_readStatus _ _ _ _ _)

theorem State.moves_found (n : SlotId) : s.Moves (s.found n) := by
  unfold State.found
  split
  · exact ((s.moves_updCells _).trans (State.moves_updSlot _ n _)).trans (State.moves_judge _ n)
  · exact .refl s

theorem State.moves_notFound (n : SlotId) : s.Moves (s.notFound n) := by
  unfold State.notFound
  split
  · exact s.moves_silent n
  · exact .refl s

theorem State.moves_noReply (b : BranchId) (e : Entry) (l : List Byte) : s.Moves (s.noReply b e l) := by
  have hfree := s.moves_freeBus b
  unfold State.noReply
  dsimp only
  repeat' split
  · exact hfree.trans (State.moves_complete _ _ _ _ _ _ _ _ _)
  · exact hfree.trans (State.moves_complete _ _ _ _ _ _ _ _ _)
  · exact hfree.trans (State.moves_silent _ _)
  · exact hfree.trans (State.moves_complete _ _ _ _ _ _ _ _ _)
  · exact hfree
  · exact (hfree.trans (State.moves_notFound _ _)).trans (State.moves_updBranch _ _ _)
  · exact hfree.trans (State.moves_answerService _ _ _)

theorem State.moves_windowEnd (b : BranchId) (l : List Byte) : s.Moves (s.windowEnd b l) := by
  unfold State.windowEnd
  split
  · exact .refl s
  · exact s.moves_freeBus b
  · exact s.moves_noReply b _ l
  · exact s.moves_updBranch b _

/-! ### Border frames -/

theorem State.moves_sendRelease (k : LinkId) (l : List CellId) : s.Moves (s.sendRelease k l) := by
  unfold State.sendRelease
  split
  · exact .refl s
  · exact s.moves_updLink k _

theorem State.moves_backOff (c : Claim) : s.Moves (s.backOff c) := by
  unfold State.backOff
  split
  · exact .refl s
  · exact .of_eq rfl rfl

theorem State.moves_timeOutClaim (k : LinkId) : s.Moves (s.timeOutClaim k) := by
  unfold State.timeOutClaim
  split
  · exact (((s.moves_sendRelease k _).trans (State.moves_updLink _ k _)).trans (State.moves_backOff _ _)).trans
      (State.moves_causeScan _)
  · exact .refl s

theorem State.moves_countTimeout (k : LinkId) : s.Moves (s.countTimeout k) := by
  unfold State.countTimeout
  split
  · exact .refl s
  · dsimp only
    split
    · exact (State.moves_timeOutClaim (State.enterLink _ k .down) k).since rfl rfl
    · exact .of_eq rfl rfl

theorem State.moves_greet (k : LinkId) (x : SectorId) : s.Moves (s.greet k x) := by
  unfold State.greet
  dsimp only
  split <;> exact .of_eq rfl rfl

theorem State.moves_takeClaim (k : LinkId) (n : Byte) (l : List Nat) : s.Moves (s.takeClaim k n l) := by
  unfold State.takeClaim
  repeat' split
  all_goals exact .of_eq rfl rfl

theorem State.moves_takeGrant (k : LinkId) (c : Claim) : s.Moves (s.takeGrant k c) := by
  have hrefuse := ((((s.moves_sendRelease k (s.stillAway k c.cells)).trans (State.moves_updLink _ k fun l =>
    { l with claim := none, lastEnd := some (c.number, .released) })).trans (State.moves_backOff _ c)).trans
    (State.moves_causeScan _))
  unfold State.takeGrant
  dsimp only
  split
  · exact hrefuse
  · split
    · exact hrefuse
    · split
      · rename_i hg
        have hr : s.sector = .run := by
          simp only [Bool.and_eq_true, decide_eq_true_eq] at hg
          exact hg.1.2
        exact (((s.moves_updLink k _).trans (State.moves_award (s.endClaim k c .granted) _ _ _ hr)).trans
          (State.moves_judge _ _)).trans (State.moves_causeScan _)
      · exact hrefuse

theorem State.moves_grantFrame (k : LinkId) (n : Byte) : s.Moves (State.grantFrame k n s) := by
  unfold State.grantFrame
  split
  · split
    · exact s.moves_takeGrant k _
    · exact s.moves_sendRelease k _
  · exact s.moves_sendRelease k _

theorem State.moves_takeRelease (k : LinkId) (l : List Nat) : s.Moves (s.takeRelease k l) := by
  unfold State.takeRelease
  dsimp only
  split <;> exact .of_eq rfl rfl

theorem State.moves_applyLent (k : LinkId) (l : List CellId) : s.Moves (s.applyLent k l) :=
  (s.moves_updCells _).trans (State.moves_sendRelease _ k _)

theorem State.moves_takeReport (k : LinkId) (a b : List Nat) : s.Moves (s.takeReport k a b) := by
  unfold State.takeReport
  dsimp only
  refine State.Moves.trans (State.Moves.of_eq ?_ ?_) (State.moves_applyLent _ k _)
  all_goals
    split <;> rfl

end
end Sys2Proof.Machine
end

section
/-! SUPPORT. The sector and the grants over requests, events and commands: what each owning rule moves, and then each command but
RESUME, STOP, the STOP line and the resets. -/

namespace Sys2Proof.Machine

/-! ### Requests and events -/

section
variable (s : State)

/-- Sector state, slots and segments are in `t` as in `s`. -/
structure State.SameGrants (s t : State) : Prop where
  sector : t.sector = s.sector
  slots : t.slots = s.slots
  pool : t.pool = s.pool

theorem State.SameGrants.moves {s t : State} (h : s.SameGrants t) : s.Moves t := .of_eq h.sector h.pool

theorem State.sameGrants_kickPorts : s.SameGrants s.kickPorts := by
  obtain ⟨_, _, e⟩ := s.kickPorts_eq
  rw [e]
  exact ⟨rfl, rfl, rfl⟩

theorem State.sameGrants_make (r : Reply) (p : PortId) : r.state.SameGrants (r.make p).kickPorts := by
  obtain ⟨_, _, e⟩ := (r.make p).kickPorts_eq
  rw [e]
  unfold Reply.make
  split <;> exact ⟨rfl, rfl, rfl⟩

theorem State.moves_kickPorts : s.Moves s.kickPorts := s.sameGrants_kickPorts.moves

/-- The grants behind a request are those of its start, or those its owning rule left. -/
theorem State.request_cases (p : PortId) (c : ReqCode) (seq : Nat) (rule : State → Reply) :
    ∃ v : State, (v = s ∨ v = (rule (s.takeInHand p c.number seq)).state) ∧ v.SameGrants (s.request p c seq rule) := by
  unfold State.request
  split
  · exact ⟨s, .inl rfl, rfl, rfl, rfl⟩
  · split
    · exact ⟨s, .inl rfl, rfl, rfl, rfl⟩
    · split
      · obtain ⟨h1, h2, h3⟩ := (s.refuseBusy p c.number seq).sameGrants_kickPorts
        exact ⟨s, .inl rfl, h1, h2, h3⟩
      · unfold State.judgeRequest
        split
        · obtain ⟨h1, h2, h3⟩ := State.sameGrants_make ((s.takeInHand p c.number seq).reply .role) p
          exact ⟨s, .inl rfl, h1, h2, h3⟩
        · split
          · obtain ⟨h1, h2, h3⟩ := State.sameGrants_make ((s.takeInHand p c.number seq).reply .unconfigured) p
            exact ⟨s, .inl rfl, h1, h2, h3⟩
          · exact ⟨_, .inr rfl, State.sameGrants_make _ p⟩

theorem State.moves_request (p : PortId) (c : ReqCode) (seq : Nat) {rule : State → Reply} (hr : ∀ s : State, s.Moves (rule s).state) :
    s.Moves (s.request p c seq rule) := by
  obtain ⟨v, hv, hsame⟩ := s.request_cases p c seq rule
  refine State.Moves.trans ?_ hsame.moves
  obtain rfl | rfl := hv
  · exact .refl _
  · exact (hr _).since rfl rfl

/-- A rule that writes store and timebase alone. -/
theorem State.moves_request_writesOnly (p : PortId) (c : ReqCode) (seq : Nat) {rule : State → Reply} (hw : WritesOnly rule) :
    s.Moves (s.request p c seq rule) :=
  s.moves_request p c seq fun s => by
    obtain ⟨_, _, e⟩ := hw s
    rw [e]
    exact .of_eq rfl rfl

theorem State.moves_badForm (p : PortId) (c q : Nat) : s.Moves (s.badForm p c q) := by
  unfold State.badForm
  split
  · exact .refl s
  · split
    · exact .refl s
    · split <;> exact (State.moves_kickPorts _).since rfl rfl

/-- The grants behind an event are those of its start, or those its work left. -/
theorem State.event_cases (f : State → State) : ∃ v : State, (v = s ∨ v = f s) ∧ v.SameGrants (s.event f) := by
  unfold State.event
  split
  · exact ⟨s, .inl rfl, rfl, rfl, rfl⟩
  · exact ⟨f s, .inr rfl, State.sameGrants_kickPorts _⟩

theorem State.moves_event {f : State → State} (hf : s.Moves (f s)) : s.Moves (s.event f) := by
  obtain ⟨v, hv, hsame⟩ := s.event_cases f
  refine State.Moves.trans ?_ hsame.moves
  obtain rfl | rfl := hv
  · exact .refl _
  · exact hf

theorem State.moves_busEvent {f : State → State} (hf : s.Moves (f s)) : s.Moves (s.busEvent f) :=
  s.moves_event (hf.trans (State.moves_finish _ s))

theorem State.moves_clockTo (t : Nat) : s.Moves (s.clockTo t) := .of_eq rfl rfl

theorem State.moves_timerEvent (b : BranchId) (t : Nat) (f : Branch → Branch) :
    s.Moves (s.timerEvent b t fun s => s.updBranch b f) :=
  s.moves_event (((s.moves_clockTo t).trans (State.moves_updBranch _ b f)).trans (State.moves_arbitrate _ b))

theorem State.moves_onOrder (b : BranchId) (d : DropId) {f : State → Order → Nat → State} (hf : ∀ o l, s.Moves (f s o l)) :
    s.Moves (s.onOrder b d f) := by
  unfold State.onOrder
  split
  · split
    · exact s.moves_busEvent (hf _ _)
    · exact .refl s
  · exact .refl s

theorem State.moves_borderEvent (k : LinkId) (x : SectorId) (b : Bool) {f : State → State} (hf : ∀ s : State, s.Moves (f s)) :
    s.Moves (s.borderEvent k x b f) := by
  unfold State.borderEvent
  split
  · exact .refl s
  · exact s.moves_busEvent ((s.moves_greet k x).trans (hf _))

/-! ### The rules of the batches -/

theorem State.moves_openBatchRule (id : Nat) : s.Moves (openBatchRule id s).state := by
  unfold openBatchRule
  repeat' split
  all_goals try dsimp only [State.reply]
  all_goals with_reducible first | exact .refl s | exact s.moves_sequenceViolation | exact .of_eq rfl rfl

theorem State.moves_loadSegmentRule (d : Descriptor) : s.Moves (loadSegmentRule d s).state := by
  unfold loadSegmentRule
  dsimp only
  repeat' split
  all_goals try dsimp only [State.reply, State.replyWith]
  all_goals with_reducible first
    | exact .refl s
    | exact s.moves_sequenceViolation
    | exact (s.moves_takeRecord _ _ (by simp)).trans (State.moves_updBatch _ _ _)

theorem State.moves_commitBatchRule (id : Nat) : s.Moves (commitBatchRule id s).state := by
  unfold commitBatchRule
  repeat' split
  all_goals try dsimp only [State.reply]
  all_goals with_reducible first | exact .refl s | exact s.moves_sequenceViolation | exact s.moves_commit _

theorem State.moves_cancelOpenRule : s.Moves (cancelOpenRule s).state := by
  unfold cancelOpenRule
  split
  · exact s.moves_abandon _
  · exact .refl s

theorem State.moves_abortBatchRule (id : Nat) : s.Moves (abortBatchRule id s).state := by
  unfold abortBatchRule
  repeat' split
  all_goals try dsimp only [State.reply, State.replyWith, State.deferred]
  all_goals with_reducible first | exact .refl s | exact s.moves_abortBatch _

/-! ### The rules of the sector and of the slots -/

theorem State.moves_enterHold (hr : s.sector = .run) : s.Moves s.enterHold :=
  (((State.Moves.enter (by rw [hr]; exact .held)).trans (State.moves_raise _ _)).trans
    (State.withdraws_holdWithdrawals _).moves).trans (State.moves_endBatches _)

theorem State.moves_holdRule : s.Moves (holdRule s).state := by
  unfold holdRule
  split
  · exact (s.moves_enterHold (by assumption)).trans (State.moves_finish _ s)
  · exact .refl s

theorem State.moves_clearFaultRule (n : Nat) : s.Moves (clearFaultRule n s).state := by
  unfold clearFaultRule
  repeat' split
  all_goals try dsimp only [State.reply, State.replyWith, State.deferred]
  all_goals with_reducible first | exact .refl s | exact (s.moves_updSlot _ _).trans (State.moves_judge _ _)

theorem State.moves_retireAt (n : SlotId) (t : Theta) (f : Phi) (l : List CellId) : s.Moves (s.retireAt n t f l) := .of_eq rfl rfl

theorem State.moves_retireRule (n : Nat) : s.Moves (retireRule n s).state := by
  unfold retireRule
  dsimp only
  repeat' split
  all_goals try dsimp only [State.reply, State.replyWith, State.deferred]
  all_goals with_reducible first | exact .refl s | exact s.moves_retireAt _ _ _ _

theorem State.moves_unretireRule (n : Nat) : s.Moves (unretireRule n s).state := by
  unfold unretireRule
  repeat' split
  all_goals try dsimp only [State.reply]
  · exact .refl s
  · exact .refl s
  · exact (State.moves_arbitrate _ _).since rfl rfl
  · exact .refl s

/-! ### The metrology rules -/

theorem State.moves_measureRule (a b c : Nat) (l : List Nat) : s.Moves (measureRule a b c l s).state := by
  unfold measureRule
  repeat' split
  all_goals try dsimp only [State.reply, State.replyWith, State.deferred]
  all_goals with_reducible first | exact .refl s | exact (s.moves_placeAt _ _ _ _).trans (State.moves_settleEvent _ s)

theorem State.moves_setFootprintRule (a : Nat) (l : List Nat) : s.Moves (setFootprintRule a l s).state := by
  unfold setFootprintRule
  repeat' split
  all_goals try dsimp only [State.reply, State.replyWith, State.deferred]
  all_goals with_reducible first
    | exact .refl s
    | exact ((s.moves_placeAt _ _ _ _).trans (State.moves_scanWhen _ _)).trans (State.moves_settleEvent _ s)

theorem State.moves_loadTrimRule (d : Descriptor) : s.Moves (loadTrimRule d s).state := by
  unfold loadTrimRule
  repeat' split
  all_goals try dsimp only [State.reply, State.replyWith, State.deferred]
  all_goals with_reducible first | exact .refl s | exact s.moves_addTrim _ _ _ _ _

/-! ### The rules of the branches and of the links -/

theorem State.moves_takeBranchRule (n : Nat) : s.Moves (takeBranchRule n s).state := by
  unfold takeBranchRule
  repeat' split
  all_goals try dsimp only [State.reply, State.replyWith, State.deferred]
  all_goals with_reducible first | exact .refl s | exact (s.moves_updBranch _ _).trans (State.moves_arbitrate _ _)

theorem State.moves_giveBranchRule (n : Nat) : s.Moves (giveBranchRule n s).state := by
  unfold giveBranchRule
  repeat' split
  all_goals try dsimp only [State.reply, State.replyWith, State.deferred]
  all_goals with_reducible first
    | exact .refl s
    | exact ((s.moves_updBranch _ _).trans (State.moves_arbitrate _ _)).trans (State.moves_causeScan _)

theorem State.moves_directFrameRule (a b : Nat) (l : List Byte) : s.Moves (directFrameRule a b l s).state := by
  unfold directFrameRule
  repeat' split
  all_goals try dsimp only [State.reply, State.replyWith, State.deferred]
  all_goals with_reducible first | exact .refl s | exact (s.moves_updBranch _ _).trans (State.moves_arbitrate _ _)

theorem State.moves_beginCensus (c : Census) : s.Moves (s.beginCensus c) := .of_eq rfl rfl

theorem State.moves_censusRule : s.Moves (censusRule s).state := by
  unfold censusRule
  repeat' split
  all_goals try dsimp only [State.reply, State.replyWith, State.deferred]
  all_goals with_reducible first | exact .refl s | exact (s.moves_beginCensus _).trans (State.moves_runBuses _)

theorem State.moves_reclaimBorderRule (n : Nat) : s.Moves (reclaimBorderRule n s).state := by
  unfold reclaimBorderRule
  repeat' split
  all_goals exact .of_eq rfl rfl

/-! ### The rules that touch neither the sector state nor a segment -/

theorem State.moves_queryBatchRule (id : Nat) : s.Moves (queryBatchRule id s).state := by
  unfold queryBatchRule
  dsimp only
  repeat' split
  all_goals exact .of_eq rfl rfl

theorem State.moves_querySlotRule (n : Nat) : s.Moves (querySlotRule n s).state := by
  unfold querySlotRule
  split <;> exact .of_eq rfl rfl

theorem State.moves_queryCellRule (n : Nat) : s.Moves (queryCellRule n s).state := by
  unfold queryCellRule
  split <;> exact .of_eq rfl rfl

theorem State.moves_queryBranchRule (n : Nat) : s.Moves (queryBranchRule n s).state := by
  unfold queryBranchRule
  split <;> exact .of_eq rfl rfl

theorem State.moves_queryLinkRule (n : Nat) : s.Moves (queryLinkRule n s).state := by
  unfold queryLinkRule
  split <;> exact .of_eq rfl rfl

theorem State.moves_queryNoticesRule (p : PortId) : s.Moves (queryNoticesRule p s).state := by
  unfold queryNoticesRule
  dsimp only
  split <;> exact .of_eq rfl rfl

theorem State.moves_streamPositionsRule (a b : Nat) : s.Moves (streamPositionsRule a b s).state := by
  unfold streamPositionsRule
  repeat' split
  all_goals exact .of_eq rfl rfl

theorem State.moves_streamArmRule (a b : Nat) : s.Moves (streamArmRule a b s).state := by
  unfold streamArmRule
  split <;> exact .of_eq rfl rfl

theorem State.moves_streamStopRule : s.Moves (streamStopRule s).state := by
  unfold streamStopRule
  dsimp only
  split <;> exact .of_eq rfl rfl

theorem State.moves_readSenseRule (n : Nat) : s.Moves (readSenseRule n s).state := by
  unfold readSenseRule
  dsimp only
  repeat' split
  all_goals exact .of_eq rfl rfl

theorem State.moves_clearChangeRule (n : Nat) : s.Moves (clearChangeRule n s).state := by
  unfold clearChangeRule
  split <;> exact .of_eq rfl rfl

theorem State.moves_setSenseWatchRule (n : Nat) (w : Byte) : s.Moves (setSenseWatchRule n w s).state := by
  unfold setSenseWatchRule
  split <;> exact .of_eq rfl rfl

theorem State.moves_subscribeRule (p : PortId) (k : Byte) : s.Moves (subscribeRule p k s).state := .of_eq rfl rfl

/-! ### The meanings that first look at what an event finds -/

theorem State.moves_status (b : BranchId) (d : DropId) (r : StatusReply) : ∃ t, execStatus b d r s = .next t ∧ s.Moves t := by
  unfold execStatus
  repeat' split
  · exact ⟨_, rfl, s.moves_busEvent (s.moves_takeStatus _ _ _ _)⟩
  all_goals exact ⟨_, rfl, .refl s⟩

theorem State.moves_roll (b : BranchId) (d : DropId) : ∃ t, execRoll b d s = .next t ∧ s.Moves t := by
  unfold execRoll
  repeat' split
  · exact ⟨_, rfl, s.moves_busEvent (((s.moves_freeBus b).trans (State.moves_found _ _)).trans (State.moves_updBranch _ _ _))⟩
  all_goals exact ⟨_, rfl, .refl s⟩

theorem State.moves_replyWindowEnd (b : BranchId) (l : List Byte) : ∃ t, execReplyWindowEnd b l s = .next t ∧ s.Moves t := by
  unfold execReplyWindowEnd
  split
  · exact ⟨_, rfl, s.moves_busEvent ((s.moves_clockTo _).trans (State.moves_windowEnd _ b l))⟩
  · exact ⟨_, rfl, .refl s⟩

theorem State.moves_settleEnd (b : BranchId) (d : DropId) : ∃ t, execSettleEnd b d s = .next t ∧ s.Moves t := by
  unfold execSettleEnd
  dsimp only
  split
  · exact ⟨_, rfl, s.moves_timerEvent b _ _⟩
  · exact ⟨_, rfl, .refl s⟩

theorem State.moves_nakBusyWaitEnd (b : BranchId) (d : DropId) : ∃ t, execNakBusyWaitEnd b d s = .next t ∧ s.Moves t := by
  unfold execNakBusyWaitEnd
  split
  · exact ⟨_, rfl, s.moves_timerEvent b _ _⟩
  · exact ⟨_, rfl, .refl s⟩

theorem State.moves_statusCallDue (b : BranchId) (d : DropId) : ∃ t, execStatusCallDue b d s = .next t ∧ s.Moves t := by
  unfold execStatusCallDue
  repeat' split
  · exact ⟨_, rfl, .refl s⟩
  · exact ⟨_, rfl, s.moves_timerEvent b _ _⟩
  · exact ⟨_, rfl, .refl s⟩

theorem State.moves_stallLimit (b : BranchId) (d : DropId) : ∃ t, execStallLimit b d s = .next t ∧ s.Moves t := by
  unfold execStallLimit
  repeat' split
  · exact ⟨_, rfl, .refl s⟩
  · exact ⟨_, rfl, s.moves_timerEvent b _ _⟩
  · exact ⟨_, rfl, .refl s⟩

theorem State.moves_idleCallDue (b : BranchId) (d : DropId) : ∃ t, execIdleCallDue b d s = .next t ∧ s.Moves t := by
  unfold execIdleCallDue
  dsimp only
  split
  · exact ⟨_, rfl, s.moves_timerEvent b _ _⟩
  · exact ⟨_, rfl, .refl s⟩

theorem State.moves_dwellTimerEnd (n : SlotId) : ∃ t, execDwellTimerEnd n s = .next t ∧ s.Moves t := by
  unfold execDwellTimerEnd
  split
  · exact ⟨_, rfl, s.moves_busEvent ((((s.moves_clockTo _).trans (State.moves_endDwell _ n)).trans (State.moves_judge _ n)).trans
      (State.moves_endBatches _))⟩
  · exact ⟨_, rfl, .refl s⟩

theorem State.moves_backoffEnd (n : SlotId) : ∃ t, execBackoffEnd n s = .next t ∧ s.Moves t := by
  unfold execBackoffEnd
  split
  · exact ⟨_, rfl, s.moves_event (.of_eq rfl rfl)⟩
  · exact ⟨_, rfl, .refl s⟩

theorem State.moves_scan : ∃ t, execScan s = .next t ∧ s.Moves t := by
  unfold execScan
  split
  · exact ⟨_, rfl, s.moves_busEvent s.moves_makeScan⟩
  · exact ⟨_, rfl, .refl s⟩

theorem State.moves_claimAnswerTimeout (k : LinkId) : ∃ t, execClaimAnswerTimeout k s = .next t ∧ s.Moves t := by
  unfold execClaimAnswerTimeout
  split
  · exact ⟨_, rfl, s.moves_busEvent (((s.moves_clockTo _).trans (State.moves_timeOutClaim _ k)).trans (State.moves_countTimeout _ k))⟩
  · exact ⟨_, rfl, .refl s⟩

theorem State.moves_syncTimeout (k : LinkId) : ∃ t, execSyncTimeout k s = .next t ∧ s.Moves t := by
  unfold execSyncTimeout
  split
  · exact ⟨_, rfl, s.moves_busEvent (((s.moves_clockTo _).trans (State.moves_countTimeout _ k)).trans (.of_eq rfl rfl))⟩
  · exact ⟨_, rfl, .refl s⟩

theorem State.moves_claim (k : LinkId) (x : SectorId) (n : Byte) (l : List Nat) : ∃ t, execClaim k x n l s = .next t ∧ s.Moves t := by
  unfold execClaim
  split
  · exact ⟨_, rfl, s.moves_borderEvent k x _ fun s => s.moves_takeClaim k n l⟩
  · exact ⟨_, rfl, .refl s⟩

theorem State.moves_refuse (k : LinkId) (x : SectorId) (n : Byte) (r : RefuseReason) :
    ∃ t, execRefuse k x n r s = .next t ∧ s.Moves t := by
  refine ⟨_, rfl, s.moves_borderEvent k x _ fun s => ?_⟩
  repeat' split
  · exact ((s.moves_updLink k _).trans (State.moves_backOff _ _)).trans (State.moves_causeScan _)
  all_goals exact .refl s

theorem State.moves_release (k : LinkId) (x : SectorId) (l : List Nat) : ∃ t, execRelease k x l s = .next t ∧ s.Moves t := by
  unfold execRelease
  split
  · exact ⟨_, rfl, s.moves_borderEvent k x _ fun s => s.moves_takeRelease k l⟩
  · exact ⟨_, rfl, .refl s⟩

theorem State.moves_syncReport (k : LinkId) (x : SectorId) (a b : List Nat) :
    ∃ t, execSyncReport k x a b s = .next t ∧ s.Moves t := by
  unfold execSyncReport
  split
  · exact ⟨_, rfl, s.moves_borderEvent k x _ fun s => s.moves_takeReport k a b⟩
  · exact ⟨_, rfl, .refl s⟩

theorem State.moves_badRequestFrame (p : PortId) (bad : BadFrame) : ∃ t, execBadRequestFrame p bad s = .next t ∧ s.Moves t := by
  cases bad with
  | failedCheck => exact ⟨_, rfl, .refl s⟩
  | wrongForm code seq => exact ⟨_, rfl, s.moves_badForm p code seq⟩
  | unknownItem seq => exact ⟨_, rfl, s.moves_request p _ seq State.Moves.refl⟩

theorem State.moves_loadPhaseEnd : ∃ t, execLoadPhaseEnd s = .next t ∧ s.Moves t := by
  unfold execLoadPhaseEnd
  split
  · exact ⟨_, rfl, s.moves_event (((State.Moves.foldl State.moves_requestHalt allBranches { s with phase := .halt }).trans
      (State.moves_finish _ s)).since rfl rfl)⟩
  · exact ⟨_, rfl, .refl s⟩

end

/-! ### The commands -/

/-- The commands that set the sector going or stop it, and those that may reset the part. -/
def steersSector : Instr → Bool
  | .resume _ _ => true
  | .stop _ _ => true
  | .stopLineAssert => true
  | c => mayReset c

/-- Every other command moves the sector and the grants as `State.Moves` allows. -/
theorem State.moves_exec (s : State) (c : Instr) (hc : steersSector c = false) : ∃ t, exec c s = .next t ∧ s.Moves t := by
  cases c with
  | openBatch p seq id => exact ⟨_, rfl, s.moves_request p _ seq fun s => s.moves_openBatchRule id⟩
  | loadSegment p seq d => exact ⟨_, rfl, s.moves_request p _ seq fun s => s.moves_loadSegmentRule d⟩
  | commitBatch p seq id => exact ⟨_, rfl, s.moves_request p _ seq fun s => s.moves_commitBatchRule id⟩
  | cancelOpen p seq => exact ⟨_, rfl, s.moves_request p _ seq State.moves_cancelOpenRule⟩
  | abortBatch p seq id => exact ⟨_, rfl, s.moves_request p _ seq fun s => s.moves_abortBatchRule id⟩
  | ackLoadError p seq => exact ⟨_, rfl, s.moves_request p _ seq fun s => .of_eq rfl rfl⟩
  | queryBatch p seq id => exact ⟨_, rfl, s.moves_request p _ seq fun s => s.moves_queryBatchRule id⟩
  | hold p seq => exact ⟨_, rfl, s.moves_request p _ seq State.moves_holdRule⟩
  | queryQueue p seq => exact ⟨_, rfl, s.moves_request p _ seq State.Moves.refl⟩
  | querySlot p seq n => exact ⟨_, rfl, s.moves_request p _ seq fun s => s.moves_querySlotRule n⟩
  | clearFault p seq n => exact ⟨_, rfl, s.moves_request p _ seq fun s => s.moves_clearFaultRule n⟩
  | retire p seq n => exact ⟨_, rfl, s.moves_request p _ seq fun s => s.moves_retireRule n⟩
  | unretire p seq n => exact ⟨_, rfl, s.moves_request p _ seq fun s => s.moves_unretireRule n⟩
  | storeRetired p seq => exact ⟨_, rfl, s.moves_request_writesOnly p _ seq writesOnly_storeRetired⟩
  | measure p seq n a f l => exact ⟨_, rfl, s.moves_request p _ seq fun s => s.moves_measureRule n a f l⟩
  | setFootprint p seq n l => exact ⟨_, rfl, s.moves_request p _ seq fun s => s.moves_setFootprintRule n l⟩
  | loadTrim p seq d => exact ⟨_, rfl, s.moves_request p _ seq fun s => s.moves_loadTrimRule d⟩
  | streamPositions p seq a b => exact ⟨_, rfl, s.moves_request p _ seq fun s => s.moves_streamPositionsRule a b⟩
  | streamArm p seq a b => exact ⟨_, rfl, s.moves_request p _ seq fun s => s.moves_streamArmRule a b⟩
  | streamStop p seq => exact ⟨_, rfl, s.moves_request p _ seq State.moves_streamStopRule⟩
  | readSense p seq n => exact ⟨_, rfl, s.moves_request p _ seq fun s => s.moves_readSenseRule n⟩
  | clearChange p seq n => exact ⟨_, rfl, s.moves_request p _ seq fun s => s.moves_clearChangeRule n⟩
  | setSenseWatch p seq n w => exact ⟨_, rfl, s.moves_request p _ seq fun s => s.moves_setSenseWatchRule n w⟩
  | queryCell p seq n => exact ⟨_, rfl, s.moves_request p _ seq fun s => s.moves_queryCellRule n⟩
  | takeBranch p seq n => exact ⟨_, rfl, s.moves_request p _ seq fun s => s.moves_takeBranchRule n⟩
  | giveBranch p seq n => exact ⟨_, rfl, s.moves_request p _ seq fun s => s.moves_giveBranchRule n⟩
  | directFrame p seq b d l => exact ⟨_, rfl, s.moves_request p _ seq fun s => s.moves_directFrameRule b d l⟩
  | census p seq => exact ⟨_, rfl, s.moves_request p _ seq State.moves_censusRule⟩
  | queryBranch p seq n => exact ⟨_, rfl, s.moves_request p _ seq fun s => s.moves_queryBranchRule n⟩
  | reclaimBorder p seq n => exact ⟨_, rfl, s.moves_request p _ seq fun s => s.moves_reclaimBorderRule n⟩
  | queryLink p seq n => exact ⟨_, rfl, s.moves_request p _ seq fun s => s.moves_queryLinkRule n⟩
  | setTimebase p seq us => exact ⟨_, rfl, s.moves_request_writesOnly p _ seq (writesOnly_setTimebase us)⟩
  | writeStoreSectorId p seq id => exact ⟨_, rfl, s.moves_request_writesOnly p _ seq (writesOnly_sectorId id)⟩
  | writeStoreFixedList p seq l => exact ⟨_, rfl, s.moves_request_writesOnly p _ seq (writesOnly_fixedList l)⟩
  | writeStorePatrolSet p seq n l => exact ⟨_, rfl, s.moves_request_writesOnly p _ seq (writesOnly_patrolSet n l)⟩
  | writeStoreBorderEntry p seq n e => exact ⟨_, rfl, s.moves_request_writesOnly p _ seq (writesOnly_borderEntry n e)⟩
  | writeStoreRetiredEntry p seq n e => exact ⟨_, rfl, s.moves_request_writesOnly p _ seq (writesOnly_retiredEntry n e)⟩
  | writeStoreClear p seq => exact ⟨_, rfl, s.moves_request_writesOnly p _ seq writesOnly_clear⟩
  | resetSector p seq => exact ⟨_, rfl, s.moves_request p _ seq State.Moves.refl⟩
  | subscribe p seq k => exact ⟨_, rfl, s.moves_request p _ seq fun s => s.moves_subscribeRule p k⟩
  | queryNotices p seq => exact ⟨_, rfl, s.moves_request p _ seq fun s => s.moves_queryNoticesRule p⟩
  | badRequestFrame p bad => exact s.moves_badRequestFrame p bad
  | scan => exact s.moves_scan
  | ack b d => exact ⟨_, rfl, s.moves_onOrder b d fun o _ => s.moves_updBranch b _⟩
  | nakBusy b d => exact ⟨_, rfl, s.moves_onOrder b d fun o l => s.moves_takeNak b o l⟩
  | status b d r => exact s.moves_status b d r
  | roll b d => exact s.moves_roll b d
  | branchFrameDiscarded b => exact ⟨_, rfl, .refl s⟩
  | replyWindowEnd b l => exact s.moves_replyWindowEnd b l
  | settleEnd b d => exact s.moves_settleEnd b d
  | nakBusyWaitEnd b d => exact s.moves_nakBusyWaitEnd b d
  | statusCallDue b d => exact s.moves_statusCallDue b d
  | stallLimit b d => exact s.moves_stallLimit b d
  | idleCallDue b d => exact s.moves_idleCallDue b d
  | dwellTimerEnd n => exact s.moves_dwellTimerEnd n
  | backoffEnd n => exact s.moves_backoffEnd n
  | claimAnswerTimeout k => exact s.moves_claimAnswerTimeout k
  | syncTimeout k => exact s.moves_syncTimeout k
  | claim k x n l => exact s.moves_claim k x n l
  | grant k x n => exact ⟨_, rfl, s.moves_borderEvent k x _ fun s => s.moves_grantFrame k n⟩
  | refuse k x n r => exact s.moves_refuse k x n r
  | release k x l => exact s.moves_release k x l
  | sync k x => exact ⟨_, rfl, s.moves_borderEvent k x _ fun s => (State.moves_timeOutClaim (s.report k) k).since rfl rfl⟩
  | syncReport k x a b => exact s.moves_syncReport k x a b
  | borderFrameDiscarded k => exact ⟨_, rfl, .refl s⟩
  | stopLineRelease => exact ⟨_, rfl, .of_eq rfl rfl⟩
  | resetLineAssert => exact ⟨_, rfl, .of_eq rfl rfl⟩
  | loadPhaseEnd => exact s.moves_loadPhaseEnd
  | resume | stop | stopLineAssert | powerOn | resetLineRelease | portFrameSent => exact absurd hc (by simp [steersSector, mayReset])

end Sys2Proof.Machine
end

section
/-! SUPPORT. How the sector state moves (R67 to R72). -/

namespace Sys2Proof.Machine

/-! ### RESUME -/

theorem resumeRule_cases (s : State) : (resumeRule s).state = s ∨
    ((resumeRule s).state.sector = .run ∧ (s.sector = .hold ∨ s.sector = .stopped)) := by
  unfold resumeRule
  split
  · exact .inl rfl
  · rename_i hu
    split
    · exact .inl rfl
    · rename_i hs
      repeat' split
      · exact .inl rfl
      · exact .inl rfl
      · exact .inl rfl
      · rename_i hr
        refine .inr ⟨rfl, ?_⟩
        generalize s.sector = x at hu hs hr
        cases x <;> simp_all

/-! ### STOP -/

/-- The entry into STOPPING: what follows it may bring the sector to STOPPED, and nothing is granted (R72, R156). -/
theorem State.moves_enterStopping (s : State) : State.Moves { s with sector := .stopping } s.enterStopping := by
  have hwithdrawn := ((State.Withdraws.foldl (fun s n => s.withdraws_withdrawWhere n fun _ => true) allSlots
    (s.enterSector .stopping)).trans (State.rejudged_withdrawClaims _).withdraws).moves
  have hdwells := hwithdrawn.trans (.foldl State.moves_endDwell allSlots _)
  have hhalts (u : State) : u.Moves (allBranches.foldl State.requestHalt { u with haltOut := allBranches }) :=
    (State.Moves.foldl State.moves_requestHalt allBranches { u with haltOut := allBranches }).since rfl rfl
  exact ((((State.moves_raise _ _).trans hdwells).trans (hhalts _)).trans (State.moves_judgeAll _)).trans (State.moves_endBatches _)

/-- A STOP leaves the sector state alone, or enters STOPPING from RUN or HOLD (R72). -/
theorem State.moves_takeStop (s : State) : s.Moves s.takeStop ∨
    ((s.sector = .run ∨ s.sector = .hold) ∧ State.Moves { s with sector := .stopping } s.takeStop) := by
  unfold State.takeStop
  split
  · exact .inr ⟨.inl ‹_›, s.moves_enterStopping⟩
  · exact .inr ⟨.inr ‹_›, s.moves_enterStopping⟩
  · exact .inl (.of_eq rfl rfl)
  · exact .inl (.refl s)

theorem State.arrow_takeStop (s old : State) : sectorArrow s.sector (s.takeStop.finish old).sector = true := by
  obtain h | ⟨hs, h⟩ := s.moves_takeStop
  · exact (h.trans (State.moves_finish _ old)).sector.arrow
  · have hd : SectorState.Drifts .stopping (s.takeStop.finish old).sector := (h.trans (State.moves_finish _ old)).sector
    generalize (s.takeStop.finish old).sector = x at hd
    obtain e | e := hs <;> rw [e] <;> cases hd <;> rfl

/-- Settles O8: `State.moves_exec` for all commands but RESUME, whose rule is read off, and STOP. -/
theorem sectorMoves : Obligations.SectorMoves := by
  intro c s t hc ht
  have hsame : sectorArrow s.sector s.sector = true := SectorState.Drifts.arrow (.same _)
  cases hs : steersSector c with
  | false =>
    obtain ⟨u, hu, hm⟩ := s.moves_exec c hs
    cases hu.symm.trans ht
    exact .inl hm.sector.arrow
  | true =>
    cases c <;> try exact (Bool.false_ne_true hs).elim
    case resume p seq =>
      cases ht
      obtain ⟨v, rfl | rfl, hv⟩ := s.request_cases p .resume seq resumeRule
      · exact .inl (by rw [hv.sector]; exact hsame)
      · obtain e | ⟨e, hfrom⟩ := resumeRule_cases (s.takeInHand p ReqCode.resume.number seq)
        · exact .inl (by rw [hv.sector, e]; exact hsame)
        · exact .inr ⟨hv.sector.trans e, hfrom, p, seq, rfl⟩
    case stop p seq =>
      cases ht
      obtain ⟨v, rfl | rfl, hv⟩ := s.request_cases p .stop seq stopRule
      · exact .inl (by rw [hv.sector]; exact hsame)
      · exact .inl (by rw [hv.sector]; exact State.arrow_takeStop (s.takeInHand p ReqCode.stop.number seq) _)
    case stopLineAssert =>
      cases ht
      obtain ⟨v, rfl | rfl, hv⟩ := State.event_cases { s with stopLine := true } fun s => s.takeStop.finish s
      · exact .inl (by rw [hv.sector]; exact hsame)
      · exact .inl (by rw [hv.sector]; exact State.arrow_takeStop { s with stopLine := true } _)
    all_goals exact (Bool.false_ne_true hc.symm).elim

end Sys2Proof.Machine
end

section
/-! SUPPORT. What HOLD and STOP leave granted (R87, R156): a slot cleared of the segments that a withdrawal picks stays so through
all that follows the withdrawal in its event. -/

namespace Sys2Proof.Machine

/-- In the chains of the slots of `G` no GRANTED segment passes `p`. -/
def State.Cleared (p : Segment → Bool) (G : SlotId → Prop) (s : State) : Prop :=
  ∀ n, G n → ∀ i ∈ (s.slot n).chain, ∀ g, s.seg i = some g → g.state = .granted → p g = false

/-- A test of segments that no change but a grant brings a GRANTED segment to pass. -/
def PassesNoMore (p : Segment → Bool) : Prop :=
  ∀ f, SegOk f → ∀ g, p g = false → (f g).state = .granted → p (f g) = false

theorem passesNoMore_unmarked : PassesNoMore fun g => !g.continuation := by
  intro f hf g hg e
  have hmark := (hf.granted g e).2 (by simpa using hg)
  simp [hmark]

theorem passesNoMore_any : PassesNoMore fun _ => true := fun _ _ _ hg => by cases hg

section
variable {p : Segment → Bool} {G : SlotId → Prop} {s t : State} (h : s.Cleared p G)
include h

theorem State.Cleared.of_lost (hc : ∀ n, (t.slot n).chain.Sublist (s.slot n).chain)
    (hp : ∀ i g, t.seg i = some g → s.seg i = some g) : t.Cleared p G :=
  fun n hn i hi g hg e => h n hn i ((hc n).subset hi) g (hp i g hg) e

theorem State.Cleared.of_eq (hs : t.slots = s.slots) (hp : t.pool = s.pool) : t.Cleared p G :=
  h.of_lost (fun n => by rw [State.slot, hs]; exact .refl _) fun i g hg => by rw [State.seg, hp] at hg; exact hg

theorem State.Cleared.updSlot (n : SlotId) {f : Slot → Slot} (hf : (f (s.slot n)).chain.Sublist (s.slot n).chain) :
    (s.updSlot n f).Cleared p G := by
  refine h.of_lost (fun m => ?_) fun _ _ hg => hg
  by_cases e : n = m
  · subst e
    rw [State.slot_updSlot_self]
    exact hf
  · rw [State.slot_updSlot_ne _ _ e]

theorem State.Cleared.updSeg (hp : PassesNoMore p) (id : SegId) {f : Segment → Segment} (hf : SegOk f) :
    (s.updSeg id f).Cleared p G := by
  intro n hn i hi g hg e
  by_cases hid : id = i
  · subst hid
    rw [State.seg_updSeg_self, Option.map_eq_some_iff] at hg
    obtain ⟨x, hx, rfl⟩ := hg
    exact hp f hf x (h n hn _ hi x hx (hf.granted x e).1) e
  · rw [State.seg_updSeg_ne _ _ hid] at hg
    exact h n hn i hi g hg e

theorem State.Cleared.close (id : SegId) : State.Cleared p G { s with pool := s.pool.set id none } := by
  refine h.of_lost (fun _ => .refl _) fun i g hg => ?_
  rw [State.seg, Table.get_set] at hg
  split at hg
  · cases hg
  · exact hg

end

/-- A cleared slot stays so through every change that makes no grant. -/
theorem stable_cleared {p : Segment → Bool} (hp : PassesNoMore p) (G : SlotId → Prop) : Stable (State.Cleared p G) where
  seg id _ hf h := h.updSeg hp id hf
  free _ h := h
  scanDue _ h := h
  haltOut _ h := h
  branches _ _ h := h
  census _ h := h
  links _ _ h := h
  phase _ h := h
  sector _ _ _ h := h
  raise _ h := h
  answer _ _ _ h := h
  updSlot n _ hf h := h.updSlot n (hf.chain _)
  updCells _ h := h
  takeCells _ _ _ h := h
  close id h := h.close id
  queue _ _ h := h
  joinQueue {t} n _ h := (State.Cleared.updSlot (s := { t with queue := t.queue ++ [QEntry.fresh n] }) h n
    (f := fun sl => { sl with state := sl.state.joined }) (.refl _)).of_eq rfl rfl
  dwell _ h := h
  startStop _ h := h
  anyBranch _ _ h := h
  anyLink _ _ h := h
  now _ h := h
  enter _ _ _ h := h
  count _ _ h := h
  endBatches {s} h := by
    obtain ⟨_, _, _, _, _, e⟩ := s.endBatches_eq
    rw [e]
    exact h
  moveStand {s} n st h := (h.updSlot n (f := fun sl => { sl with stand := st }) (.refl _)).of_eq
    (s.slots_moveStand n st) (s.pool_moveStand n st)
  fault n _ h := h.updSlot n (.refl _)

/-! ### The withdrawals clear -/

section
variable {p : Segment → Bool} (hp : PassesNoMore p)
include hp

/-- A withdrawal clears its slot, and keeps those cleared before. -/
theorem State.Cleared.withdrawWhere {G : SlotId → Prop} {s : State} (h : s.Cleared p G) (n : SlotId) :
    (s.withdrawWhere n p).Cleared p fun m => G m ∨ m = n := by
  have hkept := (stable_cleared hp G).withdrawWhere h n p
  rintro m (hm | rfl) i hi g hg e
  · exact hkept m hm i hi g hg e
  · exact (State.seg_withdrawWhere hg (by simp [e])).2 ((s.chainsIn_withdrawWhere m p m).subset hi) e

theorem State.Cleared.withdrawSlots {G : SlotId → Prop} {s : State} (h : s.Cleared p G) (l : List SlotId) :
    (l.foldl (fun s n => s.withdrawWhere n p) s).Cleared p fun m => G m ∨ m ∈ l := by
  induction l generalizing G s with
  | nil => simpa using h
  | cons n l ih => simpa only [List.foldl_cons, List.mem_cons, or_assoc] using ih (h.withdrawWhere hp n)

theorem State.cleared_withdrawAll (s : State) :
    (allSlots.foldl (fun s n => s.withdrawWhere n p) s).Cleared p fun _ => True := by
  have hnone : s.Cleared p fun _ => False := fun _ hn => hn.elim
  exact fun m _ => hnone.withdrawSlots hp allSlots m (.inr (List.mem_finRange m))

end

/-- After the withdrawals of R87 each GRANTED segment carries the continuation mark. -/
theorem State.cleared_holdWithdrawals (s : State) : s.holdWithdrawals.Cleared (fun g => !g.continuation) fun _ => True := by
  have hP := stable_cleared passesNoMore_unmarked fun _ => True
  exact hP.judgeAll (hP.withdrawClaims (State.cleared_withdrawAll passesNoMore_unmarked s))

theorem State.cleared_enterHold (s : State) : s.enterHold.Cleared (fun g => !g.continuation) fun _ => True :=
  (stable_cleared passesNoMore_unmarked _).endBatches (State.cleared_holdWithdrawals _)

/-- After the entry into STOPPING no segment is GRANTED and unsent (R156). -/
theorem State.cleared_enterStopping (s : State) : s.enterStopping.Cleared (fun _ => true) fun _ => True := by
  have hP := stable_cleared passesNoMore_any fun _ => True
  unfold State.enterStopping
  dsimp only
  refine hP.endBatches (hP.judgeAll (foldl_keeps (P := State.Cleared _ _) (fun t b h => hP.requestHalt h b) (hP.haltOut _ ?_)))
  exact foldl_keeps (P := State.Cleared _ _) (fun t n h => hP.endDwell h n)
    (hP.withdrawClaims (State.cleared_withdrawAll passesNoMore_any _))

/-! ### No segment granted outside RUN and HOLD -/

/-- In a segment store whose records agree every GRANTED segment stands in a chain. -/
theorem State.Cleared.none_granted {s : State} (h : s.Cleared (fun _ => true) fun _ => True) (hl : s.Ledger) {id : SegId} {g : Segment}
    (hg : s.seg id = some g) : g.state ≠ .granted := by
  intro e
  have hid : id ∈ (s.slot g.slot).chain := (hl.chains g.slot id).2 ⟨g, hg, rfl, by simp [e]⟩
  exact absurd (h g.slot trivial id hid g hg e) (by simp)

/-- What STOP leaves granted: nothing in RUN or HOLD, and in the other states nothing newly. -/
theorem State.finish_takeStop_cases (s old : State) : s.Moves (s.takeStop.finish old) ∨
    (s.takeStop.finish old).Cleared (fun _ => true) fun _ => True := by
  have hstop : (s.enterStopping.finish old).Cleared (fun _ => true) fun _ => True :=
    (stable_cleared passesNoMore_any _).finish s.cleared_enterStopping old
  unfold State.takeStop
  split
  · exact .inr hstop
  · exact .inr hstop
  · exact .inl ((State.moves_finish { s with startStop := true } old).since rfl rfl)
  · exact .inl (s.moves_finish old)

theorem State.noneGrantedStopped_resetEvent (s : State) (b : Bool) : (s.resetEvent b).NoneGrantedStopped := by
  intro _ _ id g hg
  have hnone : (s.resetEvent b).seg id = none := by simp [State.seg, State.resetEvent]
  rw [hnone] at hg
  cases hg

theorem State.NoneGrantedStopped.of_stop {s u v t : State} (hs : s.NoneGrantedStopped)
    (hv : v = s ∨ v = u) (hu : s.Moves u ∨ u.Cleared (fun _ => true) fun _ => True) (hsame : v.SameGrants t) (hl : t.Ledger) :
    t.NoneGrantedStopped := by
  obtain rfl | rfl := hv
  · exact hsame.moves.noneGrantedStopped hs
  · obtain hm | hc := hu
    · exact (hm.trans hsame.moves).noneGrantedStopped hs
    · exact fun _ _ id g hg => (hc.of_eq hsame.slots hsame.pool).none_granted hl hg

/-- Every command keeps `NoneGrantedStopped`, given that the segment store's records agree behind it. -/
theorem State.NoneGrantedStopped.exec {s t : State} (hs : s.NoneGrantedStopped) {c : Instr} (ht : exec c s = .next t)
    (hl : t.Ledger) : t.NoneGrantedStopped := by
  cases hc : steersSector c with
  | false =>
    obtain ⟨u, hu, hm⟩ := s.moves_exec c hc
    cases hu.symm.trans ht
    exact hm.noneGrantedStopped hs
  | true =>
    cases c <;> try exact (Bool.false_ne_true hc).elim
    case resume p seq =>
      cases ht
      obtain ⟨v, rfl | rfl, hv⟩ := s.request_cases p .resume seq resumeRule
      · exact hv.moves.noneGrantedStopped hs
      · obtain e | ⟨e, -⟩ := resumeRule_cases (s.takeInHand p ReqCode.resume.number seq)
        · rw [e] at hv
          exact (hv.moves.since rfl rfl).noneGrantedStopped hs
        · exact fun hr => absurd (hv.sector.trans e) hr
    case stop p seq =>
      cases ht
      obtain ⟨v, hv, hsame⟩ := s.request_cases p .stop seq stopRule
      exact hs.of_stop hv ((State.finish_takeStop_cases (s.takeInHand p ReqCode.stop.number seq) _).imp_left
        fun h => h.since rfl rfl) hsame hl
    case stopLineAssert =>
      cases ht
      obtain ⟨v, hv, hsame⟩ := State.event_cases { s with stopLine := true } fun s => s.takeStop.finish s
      exact State.NoneGrantedStopped.of_stop (s := { s with stopLine := true }) hs hv
        (State.finish_takeStop_cases { s with stopLine := true } _) hsame hl
    case powerOn x =>
      cases ht
      exact State.noneGrantedStopped_resetEvent _ _
    case resetLineRelease x =>
      change execResetLineRelease x s = .next t at ht
      unfold execResetLineRelease at ht
      split at ht <;> cases ht
      · exact State.noneGrantedStopped_resetEvent _ _
      · exact hs
    case portFrameSent p =>
      change execPortFrameSent p s = .next t at ht
      unfold execPortFrameSent at ht
      repeat' split at ht
      all_goals cases ht
      · exact State.noneGrantedStopped_resetEvent _ _
      · exact (s.moves_event (.of_eq rfl rfl)).noneGrantedStopped hs
      · exact hs

/-- Settles O31: what the withdrawals of HOLD and STOP clear stays cleared to the end of the event, and no other command grants a
segment outside RUN. -/
theorem withdrawalsMade : Obligations.WithdrawalsMade := by
  refine ⟨fun s t p seq r hR hrun ht n x hx e => ?_, fun s t p seq r hR hs ht n x hx e => ?_, fun s t hl hs ht => ?_⟩
  · have hT : s.Takes p r .hold := { hR with allowed := rfl, configured := fun _ => .inr rfl }
    have hrule : holdRule (s.takeInHand p ReqCode.hold.number seq) =
        ((s.takeInHand p ReqCode.hold.number seq).enterHold.finish (s.takeInHand p ReqCode.hold.number seq)).reply .ok :=
      if_pos hrun
    cases ht
    obtain ⟨hid, hg⟩ := State.mem_grantedSegs hx
    have hsame := State.sameGrants_make (holdRule (s.takeInHand p ReqCode.hold.number seq)) p
    rw [← State.request_takes hT, hrule] at hsame
    have hclear := ((stable_cleared passesNoMore_unmarked _).finish
      (State.cleared_enterHold (s.takeInHand p ReqCode.hold.number seq)) _).of_eq hsame.slots hsame.pool
    simpa using hclear n trivial x.1 hid x.2 hg e
  · have hT : s.Takes p r .stop := { hR with allowed := rfl, configured := fun _ => .inr rfl }
    have htake : (s.takeInHand p ReqCode.stop.number seq).takeStop = (s.takeInHand p ReqCode.stop.number seq).enterStopping := by
      unfold State.takeStop
      obtain h | h := hs
      · rw [show (s.takeInHand p ReqCode.stop.number seq).sector = .run from h]
      · rw [show (s.takeInHand p ReqCode.stop.number seq).sector = .hold from h]
    cases ht
    obtain ⟨hid, hg⟩ := State.mem_grantedSegs hx
    have hsame := State.sameGrants_make (stopRule (s.takeInHand p ReqCode.stop.number seq)) p
    rw [← State.request_takes hT, stopRule, htake] at hsame
    have hclear := ((stable_cleared passesNoMore_any _).finish
      (State.cleared_enterStopping (s.takeInHand p ReqCode.stop.number seq)) _).of_eq hsame.slots hsame.pool
    exact absurd (hclear n trivial x.1 hid x.2 hg e) (by simp)
  · have hk : s.Kept fun _ => True := ⟨hl, fun _ _ _ _ _ _ _ _ _ => trivial⟩
    have hl' := (hk.step ht).toLedger
    unfold Machine.step at ht
    split at ht
    · cases ht
      exact hs
    · rename_i c rest _
      exact State.NoneGrantedStopped.exec (s := { s with pending := rest }) hs ht hl'

end Sys2Proof.Machine
end

section
/-! SUPPORT. Why STOP does not always leave a call on its bus (R86, R97, R157). The segment store's records agree in a state whose
slot has an ACTIVE DWELL at the head of its chain and, behind it, an ACTIVE MOVE whose order is on the bus. The end of the dwell hands
the MOVE over once more; the halt finds that order waiting with its segment ACTIVE and closes the segment, whose branch then
forgets the call on the bus, and the halt is sent at once. -/

namespace Sys2Proof.Machine

/-- The order of segment 1, on the bus of branch 0. -/
def flyingOrder : Order :=
  { seg := 1, drop := 0, period := 200, continuation := false, keep := some false, left := 2, naked := false, wait := none }

/-- Its transaction. -/
def flyingCall : Transaction := { call := .entry (.order flyingOrder), left := 2 }

/-- An ACTIVE DWELL of slot 0. -/
def dwellAhead : Segment := { slot := 0, body := .dwell 1, tag := 0, batch := none, state := .active, continuation := false }

/-- An ACTIVE MOVE of slot 0. -/
def moveBehind : Segment :=
  { slot := 0, body := .move 2 3 1 [10, 11] [11], tag := 0, batch := none, state := .active, continuation := false }

/-- A dwell runs in slot 0 while the MOVE behind it is on the bus. -/
def dwellAndFlight : State :=
  { State.reset with
    sector := .run
    phase := .done
    slots := State.reset.slots.set 0
      { populated := true, state := .dwelling, stand := .footprint 5 6 [10], patrol := [], fault := none, chain := [0, 1] }
    pool := (State.reset.pool.set 0 (some dwellAhead)).set 1 (some moveBehind)
    free := (List.finRange 1024).filter fun id => decide (id ≠ 0 ∧ id ≠ 1)
    branches := State.reset.branches.upd 0 fun br => { br with bus := some flyingCall } }

theorem dwellAndFlight_seg (id : SegId) :
    dwellAndFlight.seg id = if id = 1 then some moveBehind else if id = 0 then some dwellAhead else none := by
  show ((State.reset.pool.set 0 (some dwellAhead)).set 1 (some moveBehind)).get id = _
  rw [Table.get_set, Table.get_set, show State.reset.pool.get id = none from Table.get_fill _ _]
  simp only [eq_comm]

theorem dwellAndFlight_chain : ∀ n, (dwellAndFlight.slot n).chain = if n = 0 then [0, 1] else [] := by decide +kernel

theorem dwellAndFlight_branch : ∀ b, dwellAndFlight.branch b = { Branch.atReset with bus := if b = 0 then some flyingCall else none } := by
  decide +kernel

theorem dwellAndFlight_batch : ∀ i, dwellAndFlight.batches.get i = none := by decide +kernel

theorem dwellAndFlight_free : dwellAndFlight.free = (List.finRange 1024).filter fun id => decide (id ≠ 0 ∧ id ≠ 1) := by
  delta dwellAndFlight
  dsimp only

theorem dwellAndFlight_segments {id : SegId} {g : Segment} (h : dwellAndFlight.seg id = some g) :
    (id = 1 ∧ g = moveBehind) ∨ (id = 0 ∧ g = dwellAhead) := by
  rw [dwellAndFlight_seg] at h
  split at h
  · exact .inl ⟨‹_›, (Option.some.inj h).symm⟩
  · split at h
    · exact .inr ⟨‹_›, (Option.some.inj h).symm⟩
    · cases h

/-- The segment store's records agree. -/
theorem dwellAndFlight_ledger : dwellAndFlight.Ledger where
  freeOnce := by rw [dwellAndFlight_free]; exact (List.nodup_finRange 1024).filter _
  freeRecords id := by
    rw [dwellAndFlight_free, dwellAndFlight_seg, List.mem_filter, decide_eq_true_iff]
    by_cases h1 : id = 1
    · simp [h1]
    · by_cases h0 : id = 0
      · simp [h0]
      · simp [h0, h1]
  chainOnce n := by
    rw [dwellAndFlight_chain]
    split <;> decide
  chains n id := by
    rw [dwellAndFlight_chain]
    constructor
    · intro hid
      split at hid
      · rename_i hn
        subst hn
        rw [dwellAndFlight_seg]
        obtain rfl | rfl : id = 0 ∨ id = 1 := by simpa using hid
        · exact ⟨dwellAhead, rfl, rfl, by decide⟩
        · exact ⟨moveBehind, rfl, rfl, by decide⟩
      · cases hid
    · rintro ⟨g, hg, rfl, -⟩
      obtain ⟨rfl, rfl⟩ | ⟨rfl, rfl⟩ := dwellAndFlight_segments hg <;> decide
  batchIds i j x y hx := by rw [dwellAndFlight_batch] at hx; cases hx
  openOnce i j x y hx := by rw [dwellAndFlight_batch] at hx; cases hx
  batches i x hx := by rw [dwellAndFlight_batch] at hx; cases hx
  owned id g b hg hb := by
    obtain ⟨-, rfl⟩ | ⟨-, rfl⟩ := dwellAndFlight_segments hg <;> cases hb
  unowned id g hg _ := by
    obtain ⟨-, rfl⟩ | ⟨-, rfl⟩ := dwellAndFlight_segments hg <;> decide
  queued b o ho := by rw [dwellAndFlight_branch] at ho; cases ho
  setBack b o ho := by rw [dwellAndFlight_branch] at ho; cases ho
  onBus b o l hb := by
    rw [dwellAndFlight_branch] at hb
    dsimp only at hb
    split at hb
    · rename_i h0
      cases h0
      cases hb
      rw [dwellAndFlight_chain]
      decide
    · cases hb
  polled b e he := by rw [dwellAndFlight_branch] at he; cases he

/-- The bus of branch 0 behind a command. -/
def busAfter (c : Instr) (s : State) : Option Transaction :=
  match exec c s with
  | .next t => (t.branch 0).bus
  | _ => none

/-- The STOP line sends the halt over the call that was on the bus. -/
theorem dwellAndFlight_halted : busAfter .stopLineAssert dwellAndFlight = some { call := .halt, left := 0 } := by decide +kernel

/-- Refutes O30: in `dwellAndFlight` the call on the bus of branch 0 is the order of an ACTIVE MOVE and no order of that drop waits, so
that `State.Halts.waits` would have the call stay; the STOP line takes it off and sends the halt. -/
theorem not_stopTaken : ¬ Obligations.StopTaken := by
  rintro ⟨-, hline⟩
  obtain ⟨t, ht, -, hrun, -⟩ := hline dwellAndFlight rfl
  obtain ⟨-, hhalts⟩ := hrun (.inl rfl)
  have hbus : (dwellAndFlight.branch 0).bus = some flyingCall := by rw [dwellAndFlight_branch]; rfl
  have hactive : ∃ g, dwellAndFlight.seg 1 = some g ∧ g.state = .active ∧ ∀ d, g.body ≠ .dwell d :=
    ⟨moveBehind, by rw [dwellAndFlight_seg]; rfl, rfl, nofun⟩
  have hstays : (t.branch 0).bus = some flyingCall := by
    refine (hhalts.waits dwellAndFlight_ledger 0 flyingCall hbus fun o ho => ?_).1
    cases ho
    refine ⟨fun y hy => ?_, hactive⟩
    rw [dwellAndFlight_branch] at hy
    cases hy
  have hsent : (t.branch 0).bus = some { call := .halt, left := 0 } := by
    have h := dwellAndFlight_halted
    rw [busAfter, ht] at h
    exact h
  rw [hstays] at hsent
  cases hsent

end Sys2Proof.Machine
end

section
/-! SUPPORT. RESUME as it is judged (R70). -/

namespace Sys2Proof.Machine

/-- A request at a ready port that is answered by its checks or its owning rule, the state as it was. -/
theorem State.Ready.completes_judged {s : State} {p : PortId} {r : Role} (h : s.Ready p r) (c : ReqCode) (seq : Nat)
    (rule : State → Reply) {res : Result} {f : AnswerFields}
    (hj : (s.takeInHand p c.number seq).judgeRequest r c rule =
      { state := s.takeInHand p c.number seq, answer := some (res, f) }) :
    s.Completes (s.request p c seq rule) p (c.answer seq res f) s := by
  have hreq : s.request p c seq rule =
      (({ state := s.takeInHand p c.number seq, answer := some (res, f) } : Reply).make p).kickPorts := by
    unfold State.request
    rw [if_neg (by simp [h.released]), h.role]
    simp [h.free, hj]
  rw [hreq]
  exact (State.make_completes c seq fun _ => .refl _).congr (State.apart_takeInHand _ _ _)

section
variable {s : State}

/-! ### The outcomes of the rule, in their order -/

theorem resumeRule_state (h : s.sector = .starting ∨ s.sector = .stopping) : resumeRule s = s.reply .state := by
  unfold resumeRule
  rw [if_neg (by obtain e | e := h <;> simp [e]), if_pos h]

section
variable (hs : s.sector = .run ∨ s.sector = .hold ∨ s.sector = .stopped)
include hs

/-- In RUN, HOLD and STOPPED the rule goes by the STOP line and the timebase. -/
theorem resumeRule_settled : resumeRule s = if s.stopLine then s.reply .stopActive
    else if s.timebase.isNone then s.reply .noTimebase
    else if s.sector = .run then s.reply .ok
    else (s.enterSector .run).causeScan.reply .ok := by
  unfold resumeRule
  rw [if_neg (by obtain e | e | e := hs <;> simp [e]), if_neg (by obtain e | e | e := hs <;> simp [e])]

theorem resumeRule_stopActive (hl : s.stopLine = true) : resumeRule s = s.reply .stopActive := by
  rw [resumeRule_settled hs, if_pos hl]

variable (hl : s.stopLine = false)
include hl

theorem resumeRule_noTimebase (ht : s.timebase = none) : resumeRule s = s.reply .noTimebase := by
  rw [resumeRule_settled hs, if_neg (by simp [hl]), if_pos (by simp [ht])]

theorem resumeRule_running (ht : s.timebase ≠ none) (hr : s.sector = .run) : resumeRule s = s.reply .ok := by
  rw [resumeRule_settled hs, if_neg (by simp [hl]), if_neg (by simpa using ht), if_pos hr]

theorem resumeRule_resumes (ht : s.timebase ≠ none) (hr : s.sector ≠ .run) :
    resumeRule s = (s.enterSector .run).causeScan.reply .ok := by
  rw [resumeRule_settled hs, if_neg (by simp [hl]), if_neg (by simpa using ht), if_neg hr]

end

/-- RESUME from HOLD or STOPPED (R70): RUN is entered, its notice raised, a scan started. -/
theorem State.completes_resume {p : PortId} {r : Role} (hT : s.Takes p r .resume) (seq : Nat)
    (hs : s.sector = .run ∨ s.sector = .hold ∨ s.sector = .stopped) (hl : s.stopLine = false) (ht : s.timebase ≠ none)
    (hr : s.sector ≠ .run) : s.Completes (s.request p .resume seq resumeRule) p (ReqCode.resume.answer seq .ok .none)
      { s with sector := .run, scanDue := true } := by
  refine (State.request_completes hT seq resumeRule
    (resumeRule_resumes (s := s.takeInHand p ReqCode.resume.number seq) hs hl ht hr) fun q => ?_).congr ?_
  · exact State.carries_raise (s := { s.takeInHand p ReqCode.resume.number seq with sector := .run }) _ q
  · show State.apart { s with sector := .run, scanDue := s.scanDue || true } = _
    rw [Bool.or_true]

end

/-- Settles O28: by the rule's outcomes; UNCONFIGURED is answered before the rule at the PLAN port, and by it at the SERVICE port. -/
theorem resumeJudged : Obligations.ResumeJudged := by
  refine ⟨fun s p seq r hR hm => ?_, fun s => rfl⟩
  have hallowed : ReqCode.resume.allowed r = true := by simpa [ReqCode.allowed] using hm
  have hTakes (h : s.sector ≠ .unconfigured) : s.Takes p r .resume :=
    { hR with allowed := hallowed, configured := fun e => absurd e h }
  refine ⟨fun hu => ⟨_, rfl, hR.completes_judged _ seq _ ?_⟩, fun hs => ⟨_, rfl, ?_⟩, fun hs => ?_⟩
  · have hu' : (s.takeInHand p ReqCode.resume.number seq).sector = .unconfigured := hu
    unfold State.judgeRequest
    rw [if_neg (by simp [hallowed])]
    split
    · rfl
    · rw [resumeRule, if_pos hu']
      rfl
  · exact (hTakes (by obtain e | e := hs <;> simp [e])).completes_same seq _
      (resumeRule_state (s := s.takeInHand p ReqCode.resume.number seq) hs)
  · have hT := hTakes (by obtain e | e | e := hs <;> simp [e])
    refine ⟨fun hl => ⟨_, rfl, hT.completes_same seq _ ?_⟩, fun hl ht => ⟨_, rfl, hT.completes_same seq _ ?_⟩,
      fun hl ht => ⟨fun hr => ⟨_, rfl, hT.completes_same seq _ ?_⟩, fun hr => ⟨_, rfl, State.completes_resume hT seq hs hl ht hr⟩⟩⟩
    · exact resumeRule_stopActive (s := s.takeInHand p ReqCode.resume.number seq) hs hl
    · exact resumeRule_noTimebase (s := s.takeInHand p ReqCode.resume.number seq) hs hl ht
    · exact resumeRule_running (s := s.takeInHand p ReqCode.resume.number seq) hs hl ht hr

end Sys2Proof.Machine
end

section
/-! SUPPORT. REFUSE and RELEASE (R39, R82, R124, R126, R130). -/

namespace Sys2Proof.Machine

/-! ### REFUSE (R126) -/

/-- What a REFUSE does behind its greeting. -/
def State.refuseFrame (k : LinkId) (n : Byte) (reason : RefuseReason) (s : State) : State :=
  match (s.link k).claim with
  | some c => if c.number = n then ((s.endClaim k c (refusedEnd reason)).backOff c).causeScan else s
  | none => s

theorem exec_refuse (k : LinkId) (x : SectorId) (n : Byte) (reason : RefuseReason) (s : State) :
    exec (.refuse k x n reason) s = .next (s.borderEvent k x false (State.refuseFrame k n reason)) := rfl

section
variable {s : State} {k : LinkId} {n : Byte}

theorem State.refuseFrame_claim (reason : RefuseReason) {c : Claim} (hc : (s.link k).claim = some c) (hn : c.number = n) :
    State.refuseFrame k n reason s = ((s.endClaim k c (refusedEnd reason)).backOff c).causeScan := by
  unfold State.refuseFrame
  rw [hc]
  exact if_pos hn

theorem State.refuseFrame_other (reason : RefuseReason) (h : ∀ c, (s.link k).claim = some c → c.number ≠ n) :
    State.refuseFrame k n reason s = s := by
  unfold State.refuseFrame
  split
  · rename_i c hc
    exact if_neg (h c hc)
  · rfl

/-- What the end of a claim without a grant leaves: an entry that still awaits it backs off (R82, R124). -/
theorem State.endClaim_backOff_effect (s : State) (k : LinkId) (c : Claim) (e : ClaimEnd) {t : State}
    (ht : t = ((s.endClaim k c e).backOff c).causeScan) :
    (t.link k).claim = none ∧ (t.link k).lastEnd = some (c.number, e) ∧ t.slots = s.slots ∧
      (c.withdrawn = true → t.queue = s.queue ∧ t.cells = s.cells) ∧
      (c.withdrawn = false → t.queue = s.queue.map (fun e =>
          if e.slot = c.slot then { e with pendingClaim := false, backoff := some (s.now + 100000) } else e) ∧
        ∀ y, t.cell y = if (s.cell y).owner = .pending c.slot then { s.cell y with owner := .free } else s.cell y) := by
  have he : (s.endClaim k c e).link k = { s.link k with claim := none, lastEnd := some (c.number, e) } :=
    State.link_updLink_self s k _
  subst ht
  unfold State.backOff
  split
  · rename_i hw
    exact ⟨congrArg Link.claim he, congrArg Link.lastEnd he, rfl, fun _ => ⟨rfl, rfl⟩, fun h => by rw [h] at hw; cases hw⟩
  · rename_i hw
    exact ⟨congrArg Link.claim he, congrArg Link.lastEnd he, rfl, fun h => absurd h hw,
      fun _ => ⟨rfl, fun y => State.cell_updCells (s.endClaim k c e) _ y⟩⟩

end

/-! ### RELEASE (R39, R130) -/

/-- What a RELEASE leaves. -/
theorem State.takeRelease_effect (s : State) (k : LinkId) (cells : List Nat) :
    (s.takeRelease k cells).slots = s.slots ∧
      (∀ c, (s.takeRelease k cells).cell c =
        if c ∈ s.cellsOn k cells ∧ (s.cell c).owner = .lent k then { s.cell c with owner := .free } else s.cell c) ∧
      (s.takeRelease k cells).queue = s.queue.map fun e =>
        if e.backoff.isSome && decide (e.claimLink = some k) then { e with backoff := none } else e := by
  have hcell (c : CellId) : (s.updCells fun i r =>
      if named i (s.cellsOn k cells) ∧ r.owner = .lent k then { r with owner := .free } else r).cell c =
        if c ∈ s.cellsOn k cells ∧ (s.cell c).owner = .lent k then { s.cell c with owner := .free } else s.cell c := by
    rw [State.cell_updCells]
    simp only [named_iff]
  unfold State.takeRelease
  dsimp only
  split <;> exact ⟨rfl, hcell, rfl⟩

/-- Settles O53: by the effect of a claim that ends without a grant and of a RELEASE, and what the end of the event leaves. -/
theorem refuseAndRelease : Obligations.RefuseAndRelease := by
  refine ⟨fun s k x n reason hr hp ha => ?_, fun s k x cells hr hp ha h1 h256 => ?_⟩
  · have hu := State.borderEvent_leaves k x false (State.refuseFrame k n reason) hr hp ha
    have hx := exec_refuse k x n reason s
    have hset := State.sameSetting_of_exec rfl hx
    have hg := s.greeted_greet k x
    generalize s.borderEvent k x false (State.refuseFrame k n reason) = t at hu hset hx
    generalize s.greet k x = v at hu hg
    obtain ⟨-, -, hclaim, hend, -⟩ := (hu.links k).fields
    refine ⟨fun c hc hn => ?_, fun hother => ?_⟩
    · obtain ⟨h1, h2, h3, h4, h5⟩ := v.endClaim_backOff_effect k c (refusedEnd reason)
        (State.refuseFrame_claim reason (hg.claim.trans hc) hn)
      refine ⟨t, hx, hclaim.trans h1, ?_, hu.slots.trans (h3.trans hg.slots), hset, fun hw => ?_, fun hw => ?_⟩
      · rw [hend, h2, hn]
        cases reason <;> rfl
      · exact ⟨hu.queue.trans ((h4 hw).1.trans hg.queue), hu.cells.trans ((h4 hw).2.trans hg.cells)⟩
      · obtain ⟨hq, hcell⟩ := h5 hw
        refine ⟨hu.queue.trans (by rw [hq, hg.queue, hg.now]), fun y => ?_⟩
        rw [hu.cell, hcell, hg.cell]
    · have hf := State.refuseFrame_other reason (s := v) (by rw [hg.claim]; exact hother)
      rw [hf] at hu hclaim
      exact ⟨t, hx, hclaim.trans hg.claim, hg.sameField.trans hu.sameField, hset⟩
  · have hu := State.borderEvent_leaves k x false (fun v => v.takeRelease k cells) hr hp ha
    have hx : exec (.release k x cells) s = .next (s.borderEvent k x false fun v => v.takeRelease k cells) := if_pos ⟨h1, h256⟩
    have hset := State.sameSetting_of_exec rfl hx
    have hg := s.greeted_greet k x
    generalize s.borderEvent k x false (fun v => v.takeRelease k cells) = t at hu hset hx
    generalize s.greet k x = v at hu hg
    obtain ⟨hslots, hcells, hqueue⟩ := v.takeRelease_effect k cells
    refine ⟨t, hx, hu.slots.trans (hslots.trans hg.slots), hset, fun c => ?_, hu.queue.trans (hqueue.trans (by rw [hg.queue]))⟩
    rw [hu.cell, hcells, hg.cellsOn, hg.cell]

end Sys2Proof.Machine
end

section
/-! SUPPORT. The state after reset and the invariants (R22, R41, R48, R73, R168, R181 to R184): a reset event makes the reset state of
itself, so that what every reset event leaves holds of it. -/

namespace Sys2Proof.Machine

/-! ### The reset state is what a reset event makes of itself -/

theorem Table.eq_of_get {n : Nat} {α : Type} {t u : Table n α} (h : ∀ i, t.get i = u.get i) : t = u := by
  have hitems : t.items = u.items := by
    rw [Table.items_eq, Table.items_eq]
    exact List.map_congr_left fun i _ => h i
  cases t
  cases u
  cases hitems
  rfl

/-- A blank image is not valid (R183). -/
theorem storeValid_reset : storeValid State.reset.store = false := by
  have h : patrolsPresent Image.blank = false := by decide +kernel
  unfold storeValid
  rw [show State.reset.store.image = Image.blank from rfl, h, Bool.false_and]

theorem loadedImage_reset : loadedImage State.reset.store = .blank := by
  rw [loadedImage, storeValid_reset]
  rfl

theorem slotsAtReset_blank : slotsAtReset .blank = .fill 96 .atReset := by decide +kernel

theorem borderList_blank : Image.borderList .blank = [] := by decide +kernel

/-- With no fixed list, border table and retired set every cell starts FREE (R41). -/
theorem rebuiltCells_blank : rebuiltCells [] [] (.fill 96 none) = .fill 2048 { owner := .free, shadow := 0 } := by
  refine Table.eq_of_get fun c => ?_
  have hnone : retiredHolder (.fill 96 none) c.val = none := by simp [retiredHolder]
  simp [rebuiltCells, rebuiltOwner, startOwner, named, hnone]

theorem senses_reset : State.reset.senses.map (SenseRec.afterReset true) = State.reset.senses :=
  Table.eq_of_get fun n => by simp [SenseRec.afterReset, State.reset]

theorem portsAtReset_reset : portsAtReset State.reset.straps = State.reset.ports := by decide +kernel

theorem State.resetEvent_reset : State.reset.resetEvent true = State.reset := by
  unfold State.resetEvent
  rw [loadedImage_reset, storeValid_reset, senses_reset, portsAtReset_reset]
  dsimp only
  rw [slotsAtReset_blank, borderList_blank, show Image.blank.fixed = [] from rfl,
    show Image.blank.retired = .fill 96 none from rfl, rebuiltCells_blank]
  rfl

/-! ### The limits of the store and of the footprints -/

theorem membership_blank (c : CellId) : membership Image.blank.patrol c = 0 := by
  rw [membership_eq, List.countP_eq_zero]
  simp [Image.blank]

/-- A blank image is within the limits of R182. -/
theorem Image.blank_sound : StoreSound .blank where
  fixedSet := by decide
  patrolSets n l h := by
    rw [show Image.blank.patrol.get n = none from Table.get_fill _ _] at h
    cases h
  members c := by
    rw [membership_blank]
    exact Nat.zero_le _
  border a b e f _ h := by
    rw [show Image.blank.border.get a = none from Table.get_fill _ _] at h
    cases h

theorem State.reset_port (p : PortId) : ∃ r, State.reset.port p = .atReset r := by
  match p with
  | 0 => exact ⟨some .plan, rfl⟩
  | 1 => exact ⟨some .metro, rfl⟩
  | 2 => exact ⟨some .service, rfl⟩

theorem Port.atReset_sound (r : Option Role) : PortSound (.atReset r) where
  notices := Nat.zero_le _
  refusals := Nat.zero_le _
  counts k := by
    rw [show (Port.atReset r).heldOver.get k = 0 from Table.get_fill _ _]
    exact Nat.zero_le _

theorem State.reset_sound : State.reset.Sound where
  store := Image.blank_sound
  ports p := by
    obtain ⟨r, hr⟩ := State.reset_port p
    rw [hr]
    exact Port.atReset_sound r
  queue := ⟨List.nodup_nil, nofun⟩
  timebase _ h := by cases h

theorem State.reset_rolesDistinct : State.reset.RolesDistinct := by
  have hroles : ∀ p q, (State.reset.port p).role = (State.reset.port q).role → p = q := by decide +kernel
  exact fun p q r hp hq => hroles p q (hp.trans hq.symm)

theorem State.reset_footprintsSound : State.reset.FootprintsSound where
  stored n e h := by
    rw [show State.reset.store.image.retired.get n = none from Table.get_fill _ _] at h
    cases h
  working n e h := by
    rw [show State.reset.retired.get n = none from Table.get_fill _ _] at h
    cases h
  standing n a f l h := by
    rw [show State.reset.slot n = .atReset from Table.get_fill _ _] at h
    cases h
  ends id g h := by
    rw [show State.reset.seg id = none from Table.get_fill _ _] at h
    cases h

theorem State.reset_orphansShadowed : State.reset.OrphansShadowed := by
  intro c k h
  rw [show State.reset.cell c = ⟨.free, 0⟩ from Table.get_fill _ _] at h
  cases h

/-- Settles O3: what every reset event leaves, read of `State.resetEvent_reset`, and the limits of the blank image. -/
theorem resetIsSound : Obligations.ResetIsSound := by
  have hkept : State.reset.Kept fun _ => False := by
    rw [← State.resetEvent_reset]
    exact State.kept_resetEvent _ _ true
  have hfield : State.reset.FieldSound := by
    rw [← State.resetEvent_reset]
    exact State.fieldSound_resetEvent _ true State.reset_sound.store.members
  have hgranted : State.reset.NoneGrantedStopped := by
    rw [← State.resetEvent_reset]
    exact State.noneGrantedStopped_resetEvent _ true
  exact ⟨State.reset_sound, State.reset_rolesDistinct, hkept.toLedger, hfield, State.reset_footprintsSound,
    State.reset_orphansShadowed, State.noneChainedAborting_iff.2 hkept.within, hgranted⟩

end Sys2Proof.Machine
end

section
/-! SUPPORT. HOLD as its answer and its effect are judged (R69, R87). -/

namespace Sys2Proof.Machine

/-! ### What a HOLD keeps -/

/-- From `s` to `t` port `p` kept its request, no robot moved, no fault came, chains only lost, and the grant queue has no slot
twice. -/
structure State.Stays (p : PortId) (s t : State) : Prop where
  port : (s.port p).Advances (t.port p)
  stand : ∀ n, (t.slot n).stand = (s.slot n).stand
  fault : ∀ n, (t.slot n).fault = (s.slot n).fault
  chain : s.ChainsIn t
  once : (t.queue.map QEntry.slot).Nodup

section
variable {p : PortId} {s t u : State} (h : State.Stays p s t)
include h

theorem State.Stays.of_eq (hp : u.ports = t.ports) (hs : u.slots = t.slots) (hq : u.queue = t.queue) : State.Stays p s u where
  port := by
    rw [State.port, State.port, hp]
    exact h.port
  stand n := by rw [State.slot, hs]; exact h.stand n
  fault n := by rw [State.slot, hs]; exact h.fault n
  chain n := by rw [State.slot, hs]; exact h.chain n
  once := by rw [hq]; exact h.once

theorem State.Stays.of_port (hp : (t.port p).Advances (u.port p)) (hs : u.slots = t.slots) (hq : u.queue = t.queue) :
    State.Stays p s u where
  port := h.port.trans hp
  stand n := by rw [State.slot, hs]; exact h.stand n
  fault n := by rw [State.slot, hs]; exact h.fault n
  chain n := by rw [State.slot, hs]; exact h.chain n
  once := by rw [hq]; exact h.once

theorem State.Stays.updSlot (n : SlotId) {f : Slot → Slot} (hf : SlotOk f) : State.Stays p s (t.updSlot n f) := by
  have hslot (m : SlotId) : ((t.updSlot n f).slot m).stand = (t.slot m).stand ∧ ((t.updSlot n f).slot m).fault = (t.slot m).fault ∧
      ((t.updSlot n f).slot m).chain.Sublist (t.slot m).chain := by
    by_cases e : n = m
    · subst e
      rw [State.slot_updSlot_self]
      exact ⟨hf.stand _, hf.fault _, hf.chain _⟩
    · rw [State.slot_updSlot_ne _ _ e]
      exact ⟨rfl, rfl, .refl _⟩
  exact ⟨h.port, fun m => (hslot m).1.trans (h.stand m), fun m => (hslot m).2.1.trans (h.fault m),
    fun m => (hslot m).2.2.trans (h.chain m), h.once⟩

theorem State.Stays.queue {x : List QEntry} (hx : (x.map QEntry.slot).Nodup) : State.Stays p s { t with queue := x } :=
  ⟨h.port, h.stand, h.fault, h.chain, hx⟩

theorem State.Stays.joinQueue (n : SlotId) (hn : t.inQueue n = false) : State.Stays p s (t.joinQueue n) := by
  have hnot : n ∉ t.queue.map QEntry.slot := by
    simp only [State.inQueue, List.any_eq_false, decide_eq_true_eq] at hn
    rw [List.mem_map]
    rintro ⟨e, he, hen⟩
    exact hn e he hen
  have honce : ((t.queue ++ [QEntry.fresh n]).map QEntry.slot).Nodup := by
    rw [List.map_append]
    exact List.nodup_append.2 ⟨h.once, List.nodup_singleton _, by
      rintro a ha b hb rfl
      obtain rfl : a = n := List.mem_singleton.1 hb
      exact hnot ha⟩
  exact ((h.queue honce).updSlot n (SlotOk.state fun sl => sl.state.joined)).of_eq rfl rfl rfl

theorem State.Stays.endBatches : State.Stays p s t.endBatches := by
  refine h.of_port (State.carries_endBatches p).advances ?_ ?_
  all_goals
    obtain ⟨_, _, _, _, _, e⟩ := t.endBatches_eq
    rw [e]

end

theorem calm_stays (p : PortId) (s : State) : Calm (State.Stays p s) where
  seg _ _ _ h := h.of_eq rfl rfl rfl
  free _ h := h.of_eq rfl rfl rfl
  scanDue _ h := h.of_eq rfl rfl rfl
  haltOut _ h := h.of_eq rfl rfl rfl
  branches _ _ h := h.of_eq rfl rfl rfl
  census _ h := h.of_eq rfl rfl rfl
  links _ _ h := h.of_eq rfl rfl rfl
  phase _ h := h.of_eq rfl rfl rfl
  sector _ _ _ h := h.of_eq rfl rfl rfl
  raise nt h := h.of_port (State.carries_raise nt p).advances rfl rfl
  answer m r f h := h.of_port (State.advances_answer _ m p r f) rfl rfl
  updSlot n _ hf h := h.updSlot n hf
  updCells _ h := h.of_eq rfl rfl rfl
  takeCells _ _ _ h := h.of_eq rfl rfl rfl
  close _ h := h.of_eq rfl rfl rfl
  queue _ hx h := h.queue (h.once.sublist hx.slots)
  joinQueue n hn h := h.joinQueue n hn
  dwell _ h := h.of_eq rfl rfl rfl
  startStop _ h := h.of_eq rfl rfl rfl
  anyBranch _ _ h := h.of_eq rfl rfl rfl
  anyLink _ _ h := h.of_eq rfl rfl rfl
  now _ h := h.of_eq rfl rfl rfl
  enter _ _ _ h := h.of_eq rfl rfl rfl
  count _ _ h := h.of_eq rfl rfl rfl
  endBatches h := h.endBatches

/-! ### The pending claims of the queue -/

/-- The mark of slot `n`'s entry is clear behind the withdrawal of its claim; entries keep their slots, and no mark is set (R87). -/
theorem State.queue_withdrawClaim {s : State} (hq : (s.queue.map QEntry.slot).Nodup) (n : SlotId) :
    (s.withdrawClaim n).queue = s.queue.map fun e => if e.slot = n then { e with pendingClaim := false } else e := by
  have hclear (h : ∀ e ∈ s.queue, e.slot = n → e.pendingClaim = false) :
      s.queue = s.queue.map fun e => if e.slot = n then { e with pendingClaim := false } else e := by
    refine (List.map_id _).symm.trans (List.map_congr_left fun e he => ?_)
    split
    · rename_i hn
      rw [← h e he hn]
      rfl
    · rfl
  unfold State.withdrawClaim
  split
  · rename_i x hx
    split
    · dsimp only
      split <;> rfl
    · rename_i hp
      refine hclear fun e he hn => ?_
      have hxmem := List.mem_of_find?_eq_some hx
      have hxn : x.slot = n := by simpa using List.find?_some hx
      rw [List.inj_on_of_nodup_map hq he hxmem (hn.trans hxn.symm)]
      simpa using hp
  · rename_i hx
    refine hclear fun e he hn => absurd hn ?_
    simpa using List.find?_eq_none.1 hx e he

/-- No entry of the queue has its pending-claim mark set. -/
def State.NonePending (s : State) : Prop := ∀ e ∈ s.queue, e.pendingClaim = false

theorem State.nonePending_withdrawClaims {s : State} (hq : (s.queue.map QEntry.slot).Nodup) : s.withdrawClaims.NonePending := by
  have hfold (l : List QEntry) (t : State) (ht : (t.queue.map QEntry.slot).Nodup) :
      (l.foldl (fun t e => t.withdrawClaim e.slot) t).queue =
        t.queue.map fun e => if e.slot ∈ l.map QEntry.slot then { e with pendingClaim := false } else e := by
    induction l generalizing t with
    | nil => simp
    | cons a l ih =>
      have hslots : (t.withdrawClaim a.slot).queue.map QEntry.slot = t.queue.map QEntry.slot := by
        rw [State.queue_withdrawClaim ht, List.map_map]
        refine List.map_congr_left fun e _ => ?_
        dsimp only [Function.comp]
        split <;> rfl
      rw [List.foldl_cons, ih _ (hslots ▸ ht), State.queue_withdrawClaim ht, List.map_map]
      refine List.map_congr_left fun e _ => ?_
      by_cases ha : e.slot = a.slot <;> by_cases hl : e.slot ∈ l.map QEntry.slot <;> simp_all
  intro e he
  rw [State.withdrawClaims, hfold _ _ hq] at he
  obtain ⟨x, hx, rfl⟩ := List.mem_map.1 he
  rw [if_pos (List.mem_map_of_mem hx)]

theorem State.NonePending.of_sub {s t : State} (h : s.NonePending) (hq : ∀ e ∈ t.queue, e ∈ s.queue ∨ e.pendingClaim = false) :
    t.NonePending := fun e he => (hq e he).elim (h e) id

theorem State.NonePending.judge {s : State} (h : s.NonePending) (n : SlotId) : (s.judge n).NonePending := by
  unfold State.judge
  split
  · split
    · exact h
    · have hw : s.withdrawClaim n = s := by
        unfold State.withdrawClaim
        split
        · rename_i x hx
          exact if_neg (by rw [h x (List.mem_of_find?_eq_some hx)]; decide)
        · rfl
      refine h.of_sub fun e he => .inl ?_
      rw [State.leaveQueue, hw] at he
      exact (List.mem_filter.1 he).1
  · split
    · refine h.of_sub fun e he => ?_
      obtain he | he := List.mem_append.1 (show e ∈ s.queue ++ [QEntry.fresh n] from he)
      · exact .inl he
      · exact .inr (by rw [List.mem_singleton.1 he]; rfl)
    · exact h

/-! ### The entry into HOLD -/

theorem State.endBatches_frame (s : State) : s.endBatches.sector = s.sector ∧ s.endBatches.queue = s.queue ∧
    s.endBatches.dwell = s.dwell ∧ s.endBatches.senses = s.senses := by
  obtain ⟨_, _, _, _, _, e⟩ := s.endBatches_eq
  rw [e]
  exact ⟨rfl, rfl, rfl, rfl⟩

theorem State.Stays.enterHold {p : PortId} {s : State} (h : State.Stays p s s) (hr : s.sector ≠ .unconfigured) (old : State) :
    State.Stays p s (s.enterHold.finish old) :=
  (calm_stays p s).finish ((calm_stays p s).endBatches ((calm_stays p s).holdWithdrawals
    ((calm_stays p s).enterSector h .hold hr (by decide)))) old

/-- The entry into HOLD leaves no claim pending (R87). -/
theorem State.nonePending_enterHold {s : State} (hq : (s.queue.map QEntry.slot).Nodup) (hr : s.sector ≠ .unconfigured) (old : State) :
    (s.enterHold.finish old).NonePending := by
  have hstays : State.Stays 0 s s := ⟨.refl _, fun _ => rfl, fun _ => rfl, fun _ => .refl _, hq⟩
  have hwithdrawn := foldl_keeps (P := State.Stays 0 s) (l := allSlots)
    (fun _ n ht => (calm_stays 0 s).withdrawWhere ht n fun g => !g.continuation)
    ((calm_stays 0 s).enterSector hstays .hold hr (by decide))
  have hjudged : (s.enterSector .hold).holdWithdrawals.NonePending :=
    foldl_keeps (P := State.NonePending) (fun _ n h => h.judge n) (State.nonePending_withdrawClaims hwithdrawn.once)
  have hended : s.enterHold.queue = (s.enterSector .hold).holdWithdrawals.queue := (State.endBatches_frame _).2.1
  intro e he
  rw [(s.enterHold.rests_finish old).queue, hended] at he
  exact hjudged e he

/-- The entry into HOLD leaves the dwells running and the senses as they were (R69, R157). -/
theorem State.enterHold_frame (s old : State) : (s.enterHold.finish old).sector = .hold ∧
    (s.enterHold.finish old).dwell = s.dwell ∧ (s.enterHold.finish old).senses = s.senses := by
  have hrests := s.enterHold.rests_finish old
  have hwithdraws := (s.enterSector .hold).withdraws_holdWithdrawals
  obtain ⟨hsector, -, hdwell, hsenses⟩ := (s.enterSector .hold).holdWithdrawals.endBatches_frame
  have hhold : s.enterHold.sector = .hold := hsector.trans hwithdraws.sector
  exact ⟨(hrests.sector (by rw [hhold]; decide) (by rw [hhold]; decide)).trans hhold,
    hrests.dwell.trans (hdwell.trans hwithdraws.dwell), hrests.senses.trans (hsenses.trans hwithdraws.senses)⟩

/-- Settles O29: the rule's two outcomes, and what the entry into HOLD keeps to the end of its event. -/
theorem holdTaken : Obligations.HoldTaken := by
  have hTakes {s : State} {p : PortId} {r : Role} (hR : s.Ready p r) : s.Takes p r .hold :=
    { hR with allowed := rfl, configured := fun _ => .inr rfl }
  refine ⟨fun s p seq r hR hs => ⟨_, rfl, (hTakes hR).completes_same seq _ (if_neg hs)⟩, fun s p seq r hR hs hq => ?_⟩
  have hx : exec (.hold p seq) s = .next (s.request p .hold seq holdRule) := rfl
  have hset := State.sameSetting_of_exec rfl hx
  have ht := State.request_takes (hTakes hR) seq holdRule
  have hu : (s.takeInHand p ReqCode.hold.number seq).sector ≠ .unconfigured := by
    rw [show (s.takeInHand p ReqCode.hold.number seq).sector = .run from hs]
    decide
  rw [holdRule, if_pos (show (s.takeInHand p ReqCode.hold.number seq).sector = .run from hs)] at ht
  obtain ⟨h1, h2, h3⟩ := (s.takeInHand p ReqCode.hold.number seq).enterHold_frame (s.takeInHand p ReqCode.hold.number seq)
  have hstays : State.Stays p (s.takeInHand p ReqCode.hold.number seq) (s.takeInHand p ReqCode.hold.number seq) :=
    ⟨.refl _, fun _ => rfl, fun _ => rfl, fun _ => .refl _, hq.once⟩
  have hkept := hstays.enterHold hu (s.takeInHand p ReqCode.hold.number seq)
  have hpending := State.nonePending_enterHold (s := s.takeInHand p ReqCode.hold.number seq) hq.once hu
    (s.takeInHand p ReqCode.hold.number seq)
  generalize (s.takeInHand p ReqCode.hold.number seq).enterHold.finish (s.takeInHand p ReqCode.hold.number seq) = v at *
  refine ⟨_, hx, ?_, ?_⟩
  · rw [ht]
    exact State.answersLast_ok hkept.port
  · obtain ⟨_, _, e⟩ := ((v.reply .ok).make p).kickPorts_eq
    rw [e] at ht
    rw [ht] at hset ⊢
    exact ⟨h1, hpending, fun n => ⟨hkept.stand n, hkept.chain n, hkept.fault n⟩, h2, h3, hset⟩

end Sys2Proof.Machine
end

section
/-! SUPPORT. The arbiter of one branch (R92, R93, R111), said once: what a filled place, a begun transaction and a take make of the
branch, what they leave of the other branches and of the ports, and which calls that are owed are still owed or on the bus. -/

namespace Sys2Proof.Machine

/-! ### The free places (R93) -/

/-- A poll-list entry but for whether its final call is to be queued. -/
def PollEntry.unasked (e : PollEntry) : PollEntry := { e with finalWanted := false }

/-- What filling free places makes of a branch: entries join the queue, and what left another list stands in the queue (R93). -/
structure Branch.Fills (a b : Branch) : Prop where
  rest : b = { a with
    queue := b.queue, poll := b.poll, backlog := b.backlog, direct := b.direct, rollsLeft := b.rollsLeft }
  queue : ∀ e ∈ a.queue, e ∈ b.queue
  poll : b.poll.map PollEntry.unasked = a.poll.map PollEntry.unasked
  direct : ∀ d bytes, a.direct = some (d, bytes) → b.direct = some (d, bytes) ∨ .direct d bytes ∈ b.queue
  rolls : ∀ d ∈ a.rollsLeft, d ∈ b.rollsLeft ∨ .roll d ∈ b.queue
  idle : a.access ≠ .own → ∀ d, .status d .idle ∈ b.queue → .status d .idle ∈ a.queue

theorem Branch.Fills.refl (a : Branch) : a.Fills a :=
  ⟨rfl, fun _ h => h, rfl, fun _ _ h => .inl h, fun _ h => .inl h, fun _ _ h => h⟩

theorem Branch.Fills.access {a b : Branch} (h : a.Fills b) : b.access = a.access := by rw [h.rest]
theorem Branch.Fills.bus {a b : Branch} (h : a.Fills b) : b.bus = a.bus := by rw [h.rest]
theorem Branch.Fills.drops {a b : Branch} (h : a.Fills b) : b.drops = a.drops := by rw [h.rest]

theorem Branch.Fills.trans {a b c : Branch} (h : a.Fills b) (k : b.Fills c) : a.Fills c where
  rest := k.rest.trans (congrArg (fun x : Branch => { x with
    queue := c.queue, poll := c.poll, backlog := c.backlog, direct := c.direct, rollsLeft := c.rollsLeft }) h.rest)
  queue e he := k.queue e (h.queue e he)
  poll := k.poll.trans h.poll
  direct d bytes hd := (h.direct d bytes hd).elim (k.direct d bytes) fun hq => .inr (k.queue _ hq)
  rolls d hd := (h.rolls d hd).elim (k.rolls d) fun hq => .inr (k.queue _ hq)
  idle ha d hd := h.idle ha d (k.idle (by rw [h.access]; exact ha) d hd)

/-- An entry joins the queue, the poll list and the backlog following. -/
theorem Branch.Fills.join (a : Branch) (e : Entry) (f : PollEntry → PollEntry) (l : List Order)
    (hf : ∀ x, (f x).unasked = x.unasked) (he : a.access ≠ .own → ∀ d, e ≠ .status d .idle) :
    a.Fills { a with queue := a.queue ++ [e], poll := a.poll.map f, backlog := l } where
  rest := rfl
  queue x hx := List.mem_append_left _ hx
  poll := by
    rw [List.map_map]
    exact List.map_congr_left fun x _ => hf x
  direct _ _ h := .inl h
  rolls _ h := .inl h
  idle ha d hd := by
    obtain hd | hd := List.mem_append.1 hd
    · exact hd
    · exact absurd (List.mem_singleton.1 hd).symm (he ha d)

/-- The same with the poll list as it was. -/
theorem Branch.Fills.append (a : Branch) (e : Entry) (l : List Order) (he : a.access ≠ .own → ∀ d, e ≠ .status d .idle) :
    a.Fills { a with queue := a.queue ++ [e], backlog := l } := by
  have h := Branch.Fills.join a e id l (fun _ => rfl) he
  rwa [List.map_id] at h

theorem State.updBranch_eq_self {s : State} {b : BranchId} {f : Branch → Branch} (h : f (s.branch b) = s.branch b) :
    s.updBranch b f = s :=
  congrArg (fun x : Table 4 Branch => { s with branches := x }) (Table.upd_eq_self _ _ h)

/-- Filling a place changes the branch alone (R93). -/
theorem State.fillPlace_fills (s : State) (b : BranchId) :
    ∃ f, s.fillPlace b = s.updBranch b f ∧ (s.branch b).Fills (f (s.branch b)) := by
  have hsame : ∃ f, s = s.updBranch b f ∧ (s.branch b).Fills (f (s.branch b)) :=
    ⟨id, (State.updBranch_eq_self rfl).symm, .refl _⟩
  unfold State.fillPlace
  dsimp only
  split
  · exact hsame
  split
  · refine ⟨_, rfl, .join _ _ _ _ (fun x => ?_) fun _ d => ?_⟩
    · split <;> rfl
    · rename_i e he
      unfold PollEntry.wants
      split
      · simp
      · split <;> simp
  split
  · exact ⟨_, rfl, .append _ _ _ fun _ d => by simp⟩
  split
  · rename_i d bytes hd
    refine ⟨_, rfl, { Branch.Fills.append _ _ (s.branch b).backlog fun _ d => by simp with
      rest := rfl, direct := fun d' x h => .inr ?_ }⟩
    rw [hd] at h
    cases h
    exact List.mem_append_right _ List.mem_cons_self
  split
  · rename_i d rest ht
    refine ⟨_, rfl, { Branch.Fills.append _ _ (s.branch b).backlog fun _ d => by simp with rest := rfl, rolls := fun d' h => ?_ }⟩
    obtain rfl | h := ((takeFirst_mem ht).2 d').1 h
    · exact .inr (List.mem_append_right _ List.mem_cons_self)
    · exact .inl h
  split
  · rename_i d hd
    have hs := List.find?_some hd
    refine ⟨_, rfl, .append _ _ _ fun ha => absurd ?_ ha⟩
    simp only [State.sweepable, Bool.and_eq_true, decide_eq_true_eq] at hs
    exact hs.1.2
  · exact hsame

theorem State.fillPlaces_fills (s : State) (b : BranchId) :
    ∃ f, s.fillPlaces b = s.updBranch b f ∧ (s.branch b).Fills (f (s.branch b)) := by
  have hstep (t : State) (_ : Nat) (h : ∃ f, t = s.updBranch b f ∧ (s.branch b).Fills (f (s.branch b))) :
      ∃ f, t.fillPlace b = s.updBranch b f ∧ (s.branch b).Fills (f (s.branch b)) := by
    obtain ⟨f, rfl, hf⟩ := h
    obtain ⟨g, hg, hfills⟩ := (s.updBranch b f).fillPlace_fills b
    rw [State.branch_updBranch_self] at hfills
    refine ⟨fun x => g (f x), hg.trans ?_, hf.trans hfills⟩
    exact congrArg (fun x : Table 4 Branch => { s with branches := x }) (Table.upd_upd _ _ _ _)
  exact foldl_keeps (P := fun t => ∃ f, t = s.updBranch b f ∧ (s.branch b).Fills (f (s.branch b))) hstep
    ⟨id, (State.updBranch_eq_self rfl).symm, .refl _⟩

/-- With no candidate no place is filled. -/
theorem State.fillPlaces_of_none {s : State} {b : BranchId} (hp : (s.branch b).poll = []) (hb : (s.branch b).backlog = [])
    (hd : (s.branch b).direct = none) (hr : (s.branch b).rollsLeft = []) (hs : ∀ d, s.sweepable b d = false) :
    s.fillPlaces b = s := by
  have hplace : s.fillPlace b = s := by
    unfold State.fillPlace
    dsimp only
    split
    · rfl
    · have hidle : (allDrops.find? fun d => s.sweepable b d && ((s.branch b).drops.get d).dueIdle) = none := by simp [hs]
      simp only [hp, hb, hd, hr, hidle, List.find?_nil, takeFirst]
      split <;> simp_all
  exact foldl_keeps (P := fun t => t = s) (fun t _ ht => by rw [ht, hplace]) rfl

theorem State.sweepable_of_access {s : State} {b : BranchId} (h : (s.branch b).access ≠ .own) (d : DropId) :
    s.sweepable b d = false := by
  simp [State.sweepable, h]

/-! ### The transaction that begins (R92) -/

/-- The drop of a poll-list entry stays, so that its entry is found behind a change of the list. -/
theorem Branch.find?_poll_map (l : List PollEntry) (d : DropId) {f : PollEntry → PollEntry} (hf : ∀ e, (f e).drop = e.drop) :
    (l.map f).find? (fun e => decide (e.drop = d)) = (l.find? fun e => decide (e.drop = d)).map f := by
  rw [List.find?_map]
  congr 2
  exact funext fun e => by simp [hf]

/-- The retry counter of an entry's first attempt, step orders apart (R91, R112). -/
def Entry.firstLeft : Entry → Nat
  | .direct _ _ => 0
  | _ => 2

/-- What a transaction that begins makes of its branch: what was in the queue is there or on the bus (R91, R92, R106). -/
structure Branch.Starts (a b : Branch) : Prop where
  access : b.access = a.access
  direct : b.direct = a.direct
  rolls : b.rollsLeft = a.rollsLeft
  queue : ∀ e ∈ b.queue, e ∈ a.queue
  sent : ∀ e ∈ a.queue, (∀ o, e ≠ .order o) → e ∈ b.queue ∨ b.bus = some { call := .entry e, left := e.firstLeft }
  due : ∀ d x, a.pollOf d = some x → x.due = true →
    (∃ y, b.pollOf d = some y ∧ y.due = true) ∨ ∃ w, b.bus = some { call := .entry (.status d w), left := 2 }
  idleDue : ∀ d, (a.drops.get d).idleDue = true →
    (b.drops.get d).idleDue = true ∨ b.bus = some { call := .entry (.status d .idle), left := 2 }

theorem Branch.Starts.refl (a : Branch) : a.Starts a :=
  ⟨rfl, rfl, rfl, fun _ h => h, fun _ h _ => .inl h, fun _ x hx h => .inl ⟨x, hx, h⟩, fun _ h => .inl h⟩

/-- An entry of the queue has left it for the bus, poll list and drops as they were. -/
theorem Branch.Starts.entry {a b : Branch} {e : Entry} {c : Transaction} (hbus : b.bus = some c)
    (hrest : b = { a with queue := b.queue, callAt := b.callAt, bus := b.bus }) (hq : ∀ x, x ∈ a.queue ↔ x = e ∨ x ∈ b.queue)
    (hc : (∀ o, e ≠ .order o) → c = { call := .entry e, left := e.firstLeft }) : a.Starts b where
  access := by rw [hrest]
  direct := by rw [hrest]
  rolls := by rw [hrest]
  queue x hx := (hq x).2 (.inr hx)
  sent x hx ho := by
    obtain rfl | hx := (hq x).1 hx
    · exact .inr (by rw [hbus, hc ho])
    · exact .inl hx
  due d x hx hd := .inl ⟨x, by rw [hrest]; exact hx, hd⟩
  idleDue d hd := .inl (by rw [hrest]; exact hd)

theorem State.branch_sendOrder (s : State) (b : BranchId) (o : Order) :
    ∃ c, (s.sendOrder b o).branch b = { s.branch b with bus := some c } := by
  unfold State.sendOrder
  split
  · exact ⟨_, State.branch_updBranch_self _ _ _⟩
  · dsimp only
    split <;> exact ⟨_, State.branch_updBranch_self _ _ _⟩

/-- An entry begins its transaction on a free bus. -/
theorem State.sendEntry_starts (s : State) (b : BranchId) {e : Entry} {rest : List Entry}
    (hq : ∀ x, x ∈ (s.branch b).queue ↔ x = e ∨ x ∈ rest) :
    (s.branch b).Starts
      (((s.updBranch b fun br => { br with queue := rest, callAt := s.now }).sendEntry b e).branch b) := by
  cases e with
  | order o =>
    obtain ⟨c, h⟩ := (s.updBranch b fun br => { br with queue := rest, callAt := s.now }).branch_sendOrder b o
    rw [State.branch_updBranch_self] at h
    rw [State.sendEntry, h]
    exact .entry (e := .order o) rfl rfl hq fun ho => absurd rfl (ho o)
  | roll d =>
    rw [State.sendEntry, State.branch_updBranch_self, State.branch_updBranch_self]
    exact .entry (e := .roll d) rfl rfl hq fun _ => rfl
  | direct d bytes =>
    rw [State.sendEntry, State.branch_updBranch_self, State.branch_updBranch_self]
    exact .entry (e := .direct d bytes) rfl rfl hq fun _ => rfl
  | status d w =>
    have h := Branch.Starts.entry (a := s.branch b) (e := .status d w)
      (b := { s.branch b with queue := rest, callAt := s.now, bus := some { call := .entry (.status d w), left := 2 } })
      rfl rfl hq fun _ => rfl
    by_cases hw : w = .idle
    · subst hw
      rw [State.sendEntry, State.branch_updBranch_self, State.branch_updBranch_self]
      refine { h with idleDue := fun d' hd => ?_ }
      by_cases e : d = d'
      · exact .inr (by rw [e]; rfl)
      · exact .inl (by rw [Table.get_upd_ne _ _ e]; exact hd)
    · rw [State.sendEntry.eq_3 _ _ _ _ hw, State.branch_updBranch_self, State.branch_updBranch_self]
      refine { h with due := fun d' x hx hd => ?_ }
      by_cases e : d = d'
      · exact .inr ⟨w, by rw [e]; rfl⟩
      · refine .inl ⟨x, ?_, hd⟩
        have hdrop : x.drop = d' := by simpa using List.find?_some hx
        refine (Branch.find?_poll_map _ d' fun y => by split <;> rfl).trans ?_
        rw [show List.find? _ _ = some x from hx, Option.map_some, if_neg (by rw [hdrop]; exact Ne.symm e)]

theorem State.haltReported_branches (s : State) (b : BranchId) : (s.haltReported b).branches = s.branches := by
  unfold State.haltReported
  split
  · dsimp only
    split <;> rfl
  · rfl

theorem State.finishHalt_branch (s : State) (b c : BranchId) :
    ∃ h, (s.finishHalt b).branch c = { s.branch c with halting := h } := by
  unfold State.finishHalt
  dsimp only
  split
  · rw [State.branch, State.haltReported_branches]
    by_cases e : b = c
    · subst e
      exact ⟨false, Table.get_upd_self _ _ _⟩
    · exact ⟨_, Table.get_upd_ne _ _ e⟩
  · exact ⟨_, rfl⟩

theorem State.sendHalt_starts (s : State) (b : BranchId) :
    (s.branch b).Starts ((s.sendHalt b).branch b) := by
  obtain ⟨h, e⟩ := State.finishHalt_branch (s.updBranch b fun br =>
    { br with
      haltPlace := false
      bus := some { call := .halt, left := 0 }
      callAt := s.now
      poll := br.poll.map fun e => { e with haltMark := true }
      drops := br.drops.map fun x => { x with energized := false } }) b b
  rw [State.branch_updBranch_self] at e
  rw [State.sendHalt, e]
  refine ⟨rfl, rfl, rfl, fun _ h => h, fun _ h _ => .inl h, fun d x hx hd => .inl ?_, fun d hd => .inl ?_⟩
  · refine ⟨{ x with haltMark := true }, ?_, hd⟩
    refine (Branch.find?_poll_map _ d (f := fun e => { e with haltMark := true }) fun y => rfl).trans ?_
    rw [show List.find? _ _ = some x from hx, Option.map_some]
  · rw [Table.get_map]
    exact hd

theorem State.startBus_starts (s : State) (b : BranchId) : (s.branch b).Starts ((s.startBus b).branch b) := by
  unfold State.startBus
  dsimp only
  split
  · exact .refl _
  split
  · exact s.sendHalt_starts b
  split
  · rename_i e rest ht
    exact s.sendEntry_starts b (takeFirst_mem ht).2
  · exact .refl _

/-! ### Other branches, and the ports -/

/-- From `s` to `t` no branch but `b` changed, no port lost an answer, its request or a notice, and start-up and census go on. -/
structure State.Drives (b : BranchId) (s t : State) : Prop where
  others : ∀ c, b ≠ c → t.branch c = s.branch c
  ports : ∀ q, (s.port q).Carries (t.port q)
  phase : t.phase = s.phase
  census : t.census = s.census

theorem State.Drives.refl (b : BranchId) (s : State) : State.Drives b s s := ⟨fun _ _ => rfl, fun _ => .refl _, rfl, rfl⟩

theorem State.Drives.trans {b : BranchId} {s t u : State} (h : State.Drives b s t) (k : State.Drives b t u) : State.Drives b s u :=
  ⟨fun c hc => (k.others c hc).trans (h.others c hc), fun q => (h.ports q).trans (k.ports q), k.phase.trans h.phase,
    k.census.trans h.census⟩

theorem State.drives_updBranch (s : State) (b : BranchId) (f : Branch → Branch) : State.Drives b s (s.updBranch b f) :=
  ⟨fun _ h => State.branch_updBranch_ne s f h, fun _ => .refl _, rfl, rfl⟩

theorem State.drives_fillPlaces (s : State) (b : BranchId) : State.Drives b s (s.fillPlaces b) := by
  obtain ⟨f, e, -⟩ := s.fillPlaces_fills b
  rw [e]
  exact s.drives_updBranch b f

theorem State.drives_sendOrder (s : State) (b : BranchId) (o : Order) : State.Drives b s (s.sendOrder b o) := by
  unfold State.sendOrder
  split
  · exact s.drives_updBranch b _
  · dsimp only
    split <;> exact ⟨fun _ h => State.branch_updBranch_ne _ _ h, fun _ => .refl _, rfl, rfl⟩

theorem State.drives_sendEntry (s : State) (b : BranchId) (e : Entry) : State.Drives b s (s.sendEntry b e) := by
  unfold State.sendEntry
  split
  · exact s.drives_sendOrder b _
  all_goals exact s.drives_updBranch b _

theorem State.drives_haltReported (s : State) (b : BranchId) : State.Drives b s (s.haltReported b) := by
  unfold State.haltReported
  split
  · dsimp only
    split
    · exact ⟨fun _ _ => rfl, State.carries_raise (s := { s with haltOut := _, sector := _ }) _, rfl, rfl⟩
    · exact ⟨fun _ _ => rfl, fun _ => .refl _, rfl, rfl⟩
  · exact .refl b s

theorem State.drives_finishHalt (s : State) (b : BranchId) : State.Drives b s (s.finishHalt b) := by
  unfold State.finishHalt
  dsimp only
  split
  · exact (s.drives_updBranch b _).trans (State.drives_haltReported _ b)
  · exact .refl b s

theorem State.drives_startBus (s : State) (b : BranchId) : State.Drives b s (s.startBus b) := by
  unfold State.startBus
  dsimp only
  split
  · exact .refl b s
  split
  · exact (s.drives_updBranch b _).trans (State.drives_finishHalt _ b)
  split
  · exact (s.drives_updBranch b _).trans (State.drives_sendEntry _ b _)
  · exact .refl b s

/-! ### The arbiter -/

/-- The arbiter up to the take (R92, R93). -/
def State.serve (s : State) (b : BranchId) : State := ((s.fillPlaces b).startBus b).fillPlaces b

theorem State.arbitrate_eq (s : State) (b : BranchId) : s.arbitrate b = (s.serve b).takeOver b := rfl

theorem State.drives_serve (s : State) (b : BranchId) : State.Drives b s (s.serve b) :=
  ((s.drives_fillPlaces b).trans (State.drives_startBus _ b)).trans (State.drives_fillPlaces _ b)

theorem State.rests_serve (s : State) (b : BranchId) : s.Rests (s.serve b) :=
  s.quiet_rests.fillPlaces (s.quiet_rests.startBus (s.quiet_rests.fillPlaces (.refl s) b) b) b

/-- What the arbiter up to the take makes of its branch. -/
theorem State.serve_branch (s : State) (b : BranchId) :
    ∃ x y, (s.branch b).Fills x ∧ x.Starts y ∧ y.Fills ((s.serve b).branch b) := by
  obtain ⟨f, ef, hf⟩ := s.fillPlaces_fills b
  obtain ⟨g, eg, hg⟩ := State.fillPlaces_fills ((s.fillPlaces b).startBus b) b
  have hs := (s.fillPlaces b).startBus_starts b
  rw [State.serve, eg, State.branch_updBranch_self]
  refine ⟨_, _, hf, ?_, hg⟩
  rw [ef, State.branch_updBranch_self, ← ef] at hs
  exact hs

theorem State.takeOver_eq_self {s : State} {b : BranchId} (h : (s.branch b).access ≠ .taking ∨ (s.branch b).poll ≠ []) :
    s.takeOver b = s := by
  refine if_neg fun ht => ?_
  simp only [Bool.and_eq_true, decide_eq_true_eq, State.mayTake, List.isEmpty_iff] at ht
  obtain ⟨ha, ⟨⟨hp, -⟩, -⟩, -⟩ := ht
  exact h.elim (fun h => h ha) fun h => h hp

theorem State.serve_access (s : State) (b : BranchId) :
    ((s.serve b).branch b).access = (s.branch b).access := by
  obtain ⟨x, y, hx, hy, hz⟩ := s.serve_branch b
  rw [hz.access, hy.access, hx.access]

/-- No answer is made by the arbiter of a branch that is not TAKING, or whose poll list is not empty (R111). -/
theorem State.arbitrate_eq_serve {s : State} {b : BranchId} (h : (s.branch b).access ≠ .taking ∨ (s.branch b).poll ≠ []) :
    s.arbitrate b = s.serve b := by
  obtain ⟨x, y, hx, hy, hz⟩ := s.serve_branch b
  rw [State.arbitrate_eq]
  refine State.takeOver_eq_self (h.imp (fun h => ?_) fun h e => h ?_)
  · rw [hz.access, hy.access, hx.access]
    exact h
  · have hpoll := ((s.rests_serve b).branches b).poll
    rw [e] at hpoll
    exact List.map_eq_nil_iff.1 hpoll.symm

/-- The take changes the branch's access alone. -/
theorem State.takeOver_branch (s : State) (b : BranchId) :
    ∃ a, (s.takeOver b).branch b = { s.branch b with access := a } := by
  unfold State.takeOver
  split
  · obtain ⟨ps, e⟩ := State.answerService_eq (s.updBranch b fun br => { br with access := .taken }) .ok .none
    rw [e]
    exact ⟨.taken, State.branch_updBranch_self _ _ _⟩
  · exact ⟨_, rfl⟩

theorem State.takeOver_others (s : State) {b c : BranchId} (h : b ≠ c) : (s.takeOver b).branch c = s.branch c := by
  unfold State.takeOver
  split
  · obtain ⟨ps, e⟩ := State.answerService_eq (s.updBranch b fun br => { br with access := .taken }) .ok .none
    rw [e]
    exact State.branch_updBranch_ne _ _ h
  · rfl

theorem State.arbitrate_others (s : State) {b c : BranchId} (h : b ≠ c) : (s.arbitrate b).branch c = s.branch c :=
  ((s.serve b).takeOver_others h).trans ((s.drives_serve b).others c h)

/-- What the arbiter makes of its branch: places filled, the bus started, places filled, the branch taken. -/
theorem State.arbitrate_branch (s : State) (b : BranchId) : ∃ x y z a, (s.branch b).Fills x ∧ x.Starts y ∧ y.Fills z ∧
    (s.arbitrate b).branch b = { z with access := a } := by
  obtain ⟨x, y, hx, hy, hz⟩ := s.serve_branch b
  obtain ⟨a, ha⟩ := (s.serve b).takeOver_branch b
  exact ⟨x, y, _, a, hx, hy, hz, ha⟩

/-! ### Calls that are owed -/

/-- A roll call or a direct frame is owed: it waits to be queued, or is queued. -/
def Branch.Owes (br : Branch) : Entry → Prop
  | .roll d => d ∈ br.rollsLeft ∨ .roll d ∈ br.queue
  | .direct d bytes => br.direct = some (d, bytes) ∨ .direct d bytes ∈ br.queue
  | _ => False

theorem Branch.Fills.owes {a b : Branch} (h : a.Fills b) {e : Entry} (he : a.Owes e) : b.Owes e := by
  cases e with
  | roll d => exact he.elim (h.rolls d) fun hq => .inr (h.queue _ hq)
  | direct d bytes => exact he.elim (h.direct d bytes) fun hq => .inr (h.queue _ hq)
  | order => exact he
  | status => exact he

theorem Branch.Starts.owes {a b : Branch} (h : a.Starts b) {e : Entry} (he : a.Owes e) :
    b.Owes e ∨ b.bus = some { call := .entry e, left := e.firstLeft } := by
  cases e with
  | roll d =>
    obtain he | hq := he
    · exact .inl (.inl (by rw [h.rolls]; exact he))
    · exact (h.sent _ hq fun _ => by simp).imp_left .inr
  | direct d bytes =>
    obtain he | hq := he
    · exact .inl (.inl (by rw [h.direct]; exact he))
    · exact (h.sent _ hq fun _ => by simp).imp_left .inr
  | order => exact he.elim
  | status => exact he.elim

/-- A call that is owed is owed behind the arbiter, or on the bus (R92, R93). -/
theorem State.owes_arbitrate {s : State} {b : BranchId} {e : Entry} (h : (s.branch b).Owes e) :
    ((s.arbitrate b).branch b).Owes e ∨
      ((s.arbitrate b).branch b).bus = some { call := .entry e, left := e.firstLeft } := by
  obtain ⟨x, y, z, a, hx, hy, hz, ha⟩ := s.arbitrate_branch b
  rw [ha]
  refine (hy.owes (hx.owes h)).imp (fun he => ?_) fun hbus => hz.bus.trans hbus
  have := hz.owes he
  cases e <;> exact this

/-- A poll-list drop that is due stays so behind the arbiter, or its call is on the bus (R93, R98). -/
theorem State.due_arbitrate {s : State} {b : BranchId} {d : DropId} {x : PollEntry} (hx : (s.branch b).pollOf d = some x)
    (hd : x.due = true) : (∃ y, ((s.arbitrate b).branch b).pollOf d = some y ∧ y.due = true) ∨
      ∃ w, ((s.arbitrate b).branch b).bus = some { call := .entry (.status d w), left := 2 } := by
  have hfills {a c : Branch} (h : a.Fills c) {x : PollEntry} (hx : a.pollOf d = some x) (hd : x.due = true) :
      ∃ y, c.pollOf d = some y ∧ y.due = true := by
    have hfind : (c.pollOf d).map PollEntry.unasked = (a.pollOf d).map PollEntry.unasked := by
      have hpoll := congrArg (List.find? fun e => decide (e.drop = d)) h.poll
      rwa [Branch.find?_poll_map _ d (f := PollEntry.unasked) fun _ => rfl,
        Branch.find?_poll_map _ d (f := PollEntry.unasked) fun _ => rfl] at hpoll
    rw [hx, Option.map_some, Option.map_eq_some_iff] at hfind
    obtain ⟨y, hy, e⟩ := hfind
    exact ⟨y, hy, (congrArg PollEntry.due e).trans hd⟩
  obtain ⟨u, v, z, a, hu, hv, hz, ha⟩ := s.arbitrate_branch b
  obtain ⟨y, hy, hyd⟩ := hfills hu hx hd
  rw [ha]
  refine (hv.due d y hy hyd).imp (fun ⟨y, hy, hyd⟩ => ?_) fun ⟨w, hw⟩ => ⟨w, hz.bus.trans hw⟩
  have hkept : ∃ y, z.pollOf d = some y ∧ y.due = true := hfills hz hy hyd
  exact hkept

/-- A drop due for an idle call stays so behind the arbiter, or its call is on the bus (R107). -/
theorem State.idleDue_arbitrate {s : State} {b : BranchId} {d : DropId} (h : ((s.branch b).drops.get d).idleDue = true) :
    (((s.arbitrate b).branch b).drops.get d).idleDue = true ∨
      ((s.arbitrate b).branch b).bus = some { call := .entry (.status d .idle), left := 2 } := by
  obtain ⟨u, v, z, a, hu, hv, hz, ha⟩ := s.arbitrate_branch b
  rw [ha]
  refine (hv.idleDue d (by rw [hu.drops]; exact h)).imp (fun h => ?_) fun hbus => hz.bus.trans hbus
  exact (congrArg (fun t : Table 24 Drop => (t.get d).idleDue) hz.drops).trans h

/-- No idle call joins the queue of a branch that SERVICE takes or has (R107, R112). -/
theorem State.idle_arbitrate {s : State} {b : BranchId} (ha : (s.branch b).access ≠ .own)
    (h : ∀ d, .status d .idle ∉ (s.branch b).queue) (d : DropId) : .status d .idle ∉ ((s.arbitrate b).branch b).queue := by
  obtain ⟨u, v, z, a, hu, hv, hz, e⟩ := s.arbitrate_branch b
  rw [e]
  intro hd
  have hv' := hz.idle (by rw [hv.access, hu.access]; exact ha) d hd
  exact h d (hu.idle ha d (hv.queue _ hv'))

end Sys2Proof.Machine
end

section
/-! SUPPORT. The timers of the branches (R96, R97, R98, R100, R107): what an event leaves when it is over, and each timer's mark behind
the arbiter. -/

namespace Sys2Proof.Machine

variable {s : State}

/-! ### The end of an event -/

/-- An event's end leaves its work but for ports and stream, the part not held. -/
theorem State.event_eq (hr : s.resetHeld = false) (f : State → State) :
    ∃ ps st, s.event f = { f s with ports := ps, stream := st } := by
  rw [State.event, if_neg (by simp [hr])]
  exact (f s).kickPorts_eq

/-- An event of a bus leaves its work as the buses do, ports and stream apart. -/
theorem State.busEvent_eq (hr : s.resetHeld = false) (f : State → State) :
    ∃ u ps st, (f s).Rests u ∧ s.busEvent f = { u with ports := ps, stream := st } := by
  obtain ⟨ps, st, e⟩ := State.event_eq hr fun s => (f s).finish s
  exact ⟨_, ps, st, (f s).rests_finish s, e⟩

theorem State.Rests.sameField {s t : State} (h : s.Rests t) : s.SameField t :=
  ⟨h.slots, h.cells, h.queue, h.dwell, h.batches, h.loadError, h.senses, h.retired, h.armed⟩

/-- From `s` to `t` a timer of branch `b` ended at `at'`: the clock stands there, `f` was done to the branch, its arbiter ran. -/
structure State.TimerEnds (s : State) (b : BranchId) (at' : Nat) (f : Branch → Branch) (t : State) : Prop where
  now : t.now = max s.now at'
  field : s.SameField t
  branch : ∃ u : State, u.branch b = f (s.branch b) ∧ t.branch b = (u.arbitrate b).branch b

theorem State.timerEnds (hr : s.resetHeld = false) (b : BranchId) (at' : Nat) (f : Branch → Branch) :
    s.TimerEnds b at' f (s.timerEvent b at' fun s => s.updBranch b f) := by
  obtain ⟨ps, st, e⟩ := State.event_eq hr fun s => ((s.clockTo at').updBranch b f).arbitrate b
  have h := ((s.clockTo at').updBranch b f).rests_arbitrate b
  have hbranch : ∃ u : State, u.branch b = f (s.branch b) ∧
      (((s.clockTo at').updBranch b f).arbitrate b).branch b = (u.arbitrate b).branch b :=
    ⟨_, State.branch_updBranch_self (s.clockTo at') b f, rfl⟩
  rw [State.timerEvent, e]
  generalize ((s.clockTo at').updBranch b f).arbitrate b = w at h hbranch
  exact ⟨h.now, ⟨h.slots, h.cells, h.queue, h.dwell, h.batches, h.loadError, h.senses, h.retired, h.armed⟩, hbranch⟩

section
variable {b : BranchId} {at' : Nat} {f : Branch → Branch} {t : State} (h : s.TimerEnds b at' f t)
include h

theorem State.TimerEnds.runs : Runs (f (s.branch b)) (t.branch b) := by
  obtain ⟨u, hu, ht⟩ := h.branch
  rw [ht, ← hu]
  exact (u.rests_arbitrate b).branches b

theorem State.TimerEnds.due {d : DropId} {x : PollEntry} (hx : (f (s.branch b)).pollOf d = some x) (hd : x.due = true) :
    (∃ y, (t.branch b).pollOf d = some y ∧ y.due = true) ∨
      ∃ w, (t.branch b).bus = some { call := .entry (.status d w), left := 2 } := by
  obtain ⟨u, hu, ht⟩ := h.branch
  rw [ht]
  exact State.due_arbitrate (by rw [hu]; exact hx) hd

theorem State.TimerEnds.idleDue {d : DropId} (hd : ((f (s.branch b)).drops.get d).idleDue = true) :
    ((t.branch b).drops.get d).idleDue = true ∨ (t.branch b).bus = some { call := .entry (.status d .idle), left := 2 } := by
  obtain ⟨u, hu, ht⟩ := h.branch
  rw [ht]
  exact State.idleDue_arbitrate (by rw [hu]; exact hd)

end

/-! ### The poll-list entry of a drop -/

/-- The entry of a drop behind a change of the list that keeps each entry's drop. -/
theorem Branch.pollOf_map {br : Branch} {d : DropId} {x : PollEntry} (h : br.pollOf d = some x) (f : PollEntry → PollEntry)
    (hf : ∀ e, (f e).drop = e.drop) : Branch.pollOf { br with poll := br.poll.map f } d = some (f x) := by
  rw [Branch.pollOf, Branch.find?_poll_map _ d hf, show List.find? _ _ = some x from h]
  rfl

theorem Branch.pollOf_drop {br : Branch} {d : DropId} {x : PollEntry} (h : br.pollOf d = some x) : x.drop = d := by
  simpa using List.find?_some h

/-- What an entry keeps behind the arbiter. -/
theorem Runs.pollOf {a b : Branch} (h : Runs a b) {d : DropId} {x : PollEntry} (hx : a.pollOf d = some x) :
    ∃ y, b.pollOf d = some y ∧ y.key = x.key := by
  have hfind := congrArg (List.find? fun k => decide (k.1 = d)) h.poll
  rw [List.find?_map, List.find?_map] at hfind
  have hfind' : (b.pollOf d).map PollEntry.key = (a.pollOf d).map PollEntry.key := hfind
  rw [hx, Option.map_some, Option.map_eq_some_iff] at hfind'
  exact hfind'

/-! ### The commands of the timers -/

theorem exec_settleEnd {b : BranchId} {d : DropId} {at' : Nat} (h1 : ((s.branch b).drops.get d).settling = true)
    (h2 : ((s.branch b).drops.get d).lastDone = some at') : exec (.settleEnd b d) s = .next (s.timerEvent b (at' + settleTime)
      fun s => s.updBranch b fun br => { br with drops := br.drops.upd d fun x => { x with settling := false } }) := by
  show execSettleEnd b d s = _
  simp only [execSettleEnd, h1, h2]

theorem exec_nakBusyWaitEnd {b : BranchId} {d : DropId} {at' : Nat} (h : (s.branch b).nakWaitEnd d = some at') :
    exec (.nakBusyWaitEnd b d) s = .next (s.timerEvent b at' fun s => s.updBranch b fun br =>
      { br with queue := br.queue.map (Entry.endWait d), backlog := br.backlog.map (Order.endWait d) }) := by
  show execNakBusyWaitEnd b d s = _
  simp only [execNakBusyWaitEnd, h]

/-- An order of the drop waits, so the wait of one of them is the drop's (R97). -/
theorem Branch.nakWaitEnd_some {br : Branch} {d : DropId} {o : Order} {at' : Nat} (ho : o ∈ br.orders) (hd : o.drop = d)
    (hw : o.wait = some at') : ∃ t, br.nakWaitEnd d = some t := by
  have hfind : (br.orders.find? fun o => decide (o.drop = d) && o.wait.isSome).isSome = true := by
    rw [List.find?_isSome]
    exact ⟨o, ho, by simp [hd, hw]⟩
  obtain ⟨x, hx⟩ := Option.isSome_iff_exists.1 hfind
  have hwait := List.find?_some hx
  simp only [Bool.and_eq_true, Option.isSome_iff_exists] at hwait
  obtain ⟨-, t, ht⟩ := hwait
  exact ⟨t, by rw [Branch.nakWaitEnd, hx, Option.bind_some, ht]⟩

/-- No order of the drop waits any more. -/
theorem Branch.wait_of_endWait {br : Branch} {d : DropId} {x : Order}
    (hx : x ∈ Branch.orders { br with queue := br.queue.map (Entry.endWait d), backlog := br.backlog.map (Order.endWait d) })
    (hd : x.drop = d) : x.wait = none := by
  have hend (o : Order) (e : o.endWait d = x) : x.wait = none := by
    unfold Order.endWait at e
    split at e
    · rw [← e]
    · rename_i hne
      exact absurd (by rw [e]; exact hd) hne
  rw [Branch.mem_orders] at hx
  obtain hx | hx := hx
  · obtain ⟨e, -, he⟩ := List.mem_map.1 hx
    cases e with
    | order o => exact hend o (Entry.order.inj he)
    | status | roll | direct => cases he
  · obtain ⟨o, -, he⟩ := List.mem_map.1 hx
    exact hend o he

theorem exec_statusCallDue {b : BranchId} {d : DropId} {e : PollEntry} (h : (s.branch b).pollOf d = some e) (hd : e.due = false)
    (hf : e.finalMark = false) : exec (.statusCallDue b d) s = .next (s.timerEvent b (e.lastCall + statusSpacing)
      fun s => s.updPoll b d fun e => { e with due := true }) := by
  show execStatusCallDue b d s = _
  simp only [execStatusCallDue, h, hd, hf, Bool.or_false, Bool.false_eq_true, if_false]

theorem exec_stallLimit {b : BranchId} {d : DropId} {e : PollEntry} (h : (s.branch b).pollOf d = some e)
    (hf : e.finalMark = false) : exec (.stallLimit b d) s = .next (s.timerEvent b (s.stallAt e)
      fun s => s.updPoll b d fun e => { e with finalMark := true, finalWanted := true, due := false }) := by
  show execStallLimit b d s = _
  simp only [execStallLimit, h, hf, Bool.false_eq_true, if_false]

/-- The stall limit of a MOVE or a TRIM (R100). -/
theorem State.stallAt_steps {e : PollEntry} {g : Segment} {x y : Int} {rate : Fin 4} {sweep ends : List CellId}
    (hg : s.seg e.seg = some g) (hb : g.body = .move x y rate sweep ends ∨ g.body = .trim x y rate sweep ends) :
    s.stallAt e = e.ackTime + (2 * (max x.natAbs y.natAbs * e.period) + 100000) := by
  obtain hb | hb := hb <;> rw [State.stallAt, hg, Option.map_some, hb] <;> rfl

theorem exec_idleCallDue {b : BranchId} {d : DropId} {at' : Nat} (h1 : ((s.branch b).drops.get d).idleTime = some at')
    (h2 : ((s.branch b).drops.get d).idleDue = false) : exec (.idleCallDue b d) s = .next (s.timerEvent b (at' + idleSpacing)
      fun s => s.updBranch b fun br => { br with drops := br.drops.upd d fun x => { x with idleDue := true } }) := by
  show execIdleCallDue b d s = _
  simp only [execIdleCallDue, h1, h2]

/-! ### What each timer does -/

theorem settleEnd_effect {b : BranchId} {d : DropId} {at' : Nat} (hr : s.resetHeld = false)
    (h1 : ((s.branch b).drops.get d).settling = true) (h2 : ((s.branch b).drops.get d).lastDone = some at') :
    ∃ t, exec (.settleEnd b d) s = .next t ∧ ((t.branch b).drops.get d).settling = false ∧
      t.now = max s.now (at' + 40000) ∧ s.SameField t ∧ s.SameSetting t := by
  have hx := exec_settleEnd h1 h2
  have h := State.timerEnds hr b (at' + settleTime) fun br =>
    { br with drops := br.drops.upd d fun x => { x with settling := false } }
  refine ⟨_, hx, ?_, h.now, h.field, State.sameSetting_of_exec rfl hx⟩
  rw [h.runs.settling, Table.get_upd_self]

theorem nakBusyWaitEnd_effect {b : BranchId} {d : DropId} {o : Order} {at' : Nat} (hr : s.resetHeld = false)
    (ho : o ∈ (s.branch b).orders) (hd : o.drop = d) (hw : o.wait = some at') :
    ∃ t, exec (.nakBusyWaitEnd b d) s = .next t ∧ (∀ x ∈ (t.branch b).orders, x.drop = d → x.wait = none) ∧
      s.SameField t ∧ s.SameSetting t := by
  obtain ⟨n, hn⟩ := Branch.nakWaitEnd_some ho hd hw
  have hx := exec_nakBusyWaitEnd hn
  have h := State.timerEnds hr b n fun br =>
    { br with queue := br.queue.map (Entry.endWait d), backlog := br.backlog.map (Order.endWait d) }
  exact ⟨_, hx, fun x hxo => Branch.wait_of_endWait (h.runs.orders x hxo), h.field, State.sameSetting_of_exec rfl hx⟩

theorem statusCallDue_effect {b : BranchId} {d : DropId} {e : PollEntry} (hr : s.resetHeld = false)
    (he : (s.branch b).pollOf d = some e) (hd : e.due = false) (hf : e.finalMark = false) :
    ∃ t, exec (.statusCallDue b d) s = .next t ∧ t.now = max s.now (e.lastCall + 20000) ∧ s.SameField t ∧
      s.SameSetting t ∧ ∃ x, (t.branch b).pollOf d = some x ∧ x.seg = e.seg ∧
        (x.due = true ∨ ∃ w, (t.branch b).bus = some { call := .entry (.status d w), left := 2 }) := by
  have hx := exec_statusCallDue he hd hf
  have h := State.timerEnds hr b (e.lastCall + statusSpacing) fun br =>
    { br with poll := br.poll.map fun x => if x.drop = d then { x with due := true } else x }
  have hpoll := Branch.pollOf_map he (fun x => if x.drop = d then { x with due := true } else x) fun x => by split <;> rfl
  rw [if_pos (Branch.pollOf_drop he)] at hpoll
  obtain ⟨y, hy, hkey⟩ := h.runs.pollOf hpoll
  refine ⟨_, hx, h.now, h.field, State.sameSetting_of_exec rfl hx, y, hy, congrArg (fun k => k.2.1) hkey, ?_⟩
  refine (h.due hpoll rfl).imp_left fun ⟨z, hz, hzd⟩ => ?_
  rw [hy] at hz
  cases hz
  exact hzd

theorem stallLimit_effect {b : BranchId} {d : DropId} {e : PollEntry} (hr : s.resetHeld = false)
    (he : (s.branch b).pollOf d = some e) (hf : e.finalMark = false) :
    ∃ t, exec (.stallLimit b d) s = .next t ∧ s.SameField t ∧ s.SameSetting t ∧
      (∀ g x y rate sweep ends, s.seg e.seg = some g → g.body = .move x y rate sweep ends ∨ g.body = .trim x y rate sweep ends →
        t.now = max s.now (e.ackTime + (2 * (max x.natAbs y.natAbs * e.period) + 100000))) ∧
      ∃ x, (t.branch b).pollOf d = some x ∧ x.seg = e.seg ∧ x.finalMark = true := by
  have hx := exec_stallLimit he hf
  have h := State.timerEnds hr b (s.stallAt e) fun br => { br with
    poll := br.poll.map fun x => if x.drop = d then { x with finalMark := true, finalWanted := true, due := false } else x }
  have hpoll := Branch.pollOf_map he
    (fun x => if x.drop = d then { x with finalMark := true, finalWanted := true, due := false } else x) fun x => by
      split <;> rfl
  rw [if_pos (Branch.pollOf_drop he)] at hpoll
  obtain ⟨y, hy, hkey⟩ := h.runs.pollOf hpoll
  refine ⟨_, hx, h.field, State.sameSetting_of_exec rfl hx, fun g x y rate sweep ends hg hb => ?_, y, hy,
    congrArg (fun k => k.2.1) hkey, congrArg (fun k => k.2.2.2.2.2) hkey⟩
  rw [← State.stallAt_steps hg hb]
  exact h.now

theorem idleCallDue_effect {b : BranchId} {d : DropId} {at' : Nat} (hr : s.resetHeld = false)
    (h1 : ((s.branch b).drops.get d).idleTime = some at') (h2 : ((s.branch b).drops.get d).idleDue = false) :
    ∃ t, exec (.idleCallDue b d) s = .next t ∧ t.now = max s.now (at' + 500000) ∧ s.SameField t ∧ s.SameSetting t ∧
      (((t.branch b).drops.get d).idleDue = true ∨
        (t.branch b).bus = some { call := .entry (.status d .idle), left := 2 }) := by
  have hx := exec_idleCallDue h1 h2
  have h := State.timerEnds hr b (at' + idleSpacing) fun br =>
    { br with drops := br.drops.upd d fun x => { x with idleDue := true } }
  exact ⟨_, hx, h.now, h.field, State.sameSetting_of_exec rfl hx, h.idleDue (by rw [Table.get_upd_self])⟩

/-- The end of a backoff (R82): every entry of the slot is free of it, and a scan starts in RUN. -/
theorem backoffEnd_effect {n : SlotId} {e : QEntry} {at' : Nat} (hr : s.resetHeld = false) (he : s.entry n = some e)
    (hb : e.backoff = some at') : ∃ t, exec (.backoffEnd n) s = .next t ∧ t.apart = State.apart { s with
      now := max s.now at'
      queue := s.queue.map fun x => if x.slot = n then { x with backoff := none } else x
      scanDue := s.scanDue || decide (s.sector = .run) } := by
  refine ⟨s.event fun s => ((s.clockTo at').updEntry n fun e => { e with backoff := none }).causeScan, ?_, ?_⟩
  · show execBackoffEnd n s = _
    simp only [execBackoffEnd, he, Option.bind_some, hb]
  · obtain ⟨ps, st, h⟩ := State.event_eq hr fun s => ((s.clockTo at').updEntry n fun e => { e with backoff := none }).causeScan
    rw [h]
    rfl

/-! ### A timer that is not running (log 25) -/

theorem exec_settleEnd_idle {b : BranchId} {d : DropId} (h : ((s.branch b).drops.get d).settling = false) :
    exec (.settleEnd b d) s = .next s := by
  show execSettleEnd b d s = _
  simp only [execSettleEnd, h]

theorem exec_pollTimers_idle {b : BranchId} {d : DropId} (h : (s.branch b).pollOf d = none) :
    exec (.statusCallDue b d) s = .next s ∧ exec (.stallLimit b d) s = .next s := by
  constructor
  · show execStatusCallDue b d s = _
    simp only [execStatusCallDue, h]
  · show execStallLimit b d s = _
    simp only [execStallLimit, h]

theorem exec_dwellTimerEnd_idle {n : SlotId} (h : s.dwell.get n = none) : exec (.dwellTimerEnd n) s = .next s := by
  show execDwellTimerEnd n s = _
  simp only [execDwellTimerEnd, h]

theorem exec_backoffEnd_idle {n : SlotId} (h : s.entry n = none) : exec (.backoffEnd n) s = .next s := by
  show execBackoffEnd n s = _
  simp only [execBackoffEnd, h, Option.bind_none]

end Sys2Proof.Machine
end

section
/-! SUPPORT. The SERVICE requests to the branches (R110 to R113): the rules' outcomes, a request whose answer is deferred, and what the
arbiter makes of a branch taken, given back, or given a direct frame or roll calls. -/

namespace Sys2Proof.Machine

variable {s : State}

/-! ### Requests whose answer is deferred (R171) -/

theorem State.port_takeInHand (s : State) (p : PortId) (c seq : Nat) :
    (s.takeInHand p c seq).port p = { s.port p with busy := true, inHand := some { code := c, seq := seq } } :=
  State.port_updPort_self _ _ _

/-- A rule that defers the answer, no answer made in its event. -/
theorem State.Takes.defers {p : PortId} {r : Role} {c : ReqCode} (hT : s.Takes p r c) (seq : Nat) (rule : State → Reply) {u : State}
    (hr : rule (s.takeInHand p c.number seq) = u.deferred) (hv : ((s.takeInHand p c.number seq).port p).Carries (u.port p)) :
    s.Defers (s.request p c seq rule) p c seq := by
  rw [State.request_takes hT, hr]
  have h := hv.trans (State.carries_kickPorts (s := u) p)
  have hp := s.port_takeInHand p c.number seq
  refine ⟨h.answers.trans ?_, h.busy.trans ?_, h.inHand.trans ?_⟩
  · rw [hp]
    rfl
  · rw [hp]
  · rw [hp]

/-- Ports and stream apart, the state behind such a request is what its rule leaves. -/
theorem State.Takes.deferred_eq {p : PortId} {r : Role} {c : ReqCode} (hT : s.Takes p r c) (seq : Nat) (rule : State → Reply)
    {u : State} (hr : rule (s.takeInHand p c.number seq) = u.deferred) :
    ∃ ps st, s.request p c seq rule = { u with ports := ps, stream := st } := by
  rw [State.request_takes hT, hr]
  exact u.kickPorts_eq

/-- A deferred answer goes to the one SERVICE port (R168, R171). -/
theorem State.answerService_eq_answer {p : PortId} (hp : (s.port p).role = some .service)
    (hone : ∀ q, (s.port q).role = some .service → q = p) (r : Result) (f : AnswerFields) :
    s.answerService r f = s.answer p r f := by
  have hfind : (allPorts.find? fun q => decide ((s.port q).role = some .service)) = some p := by
    obtain ⟨q, hq⟩ := Option.isSome_iff_exists.1 (List.find?_isSome.2 (⟨p, List.mem_finRange p, by simp [hp]⟩ :
      ∃ q ∈ allPorts, decide ((s.port q).role = some .service) = true))
    have hrole := List.find?_some hq
    rw [hq, hone q (by simpa using hrole)]
  rw [State.answerService, hfind]

/-! ### TAKE_BRANCH (R111) -/

theorem takeBranchRule_badArg {branch : Nat} (h : 3 < branch) : takeBranchRule branch s = s.reply .badArg := by
  simp only [takeBranchRule, inRange_eq_none (n := 4) h]

theorem takeBranchRule_taken {b : BranchId} (h : (s.branch b).access ≠ .own ∨ s.census = .service ∨ s.phase ≠ .done) :
    takeBranchRule b.val s = s.reply .taken := by
  simp only [takeBranchRule, inRange_val]
  split
  · rfl
  split
  · rfl
  rename_i ha hc
  exact if_pos (h.elim (fun h => absurd h ha) fun h => h.elim (fun h => absurd h hc) id)

theorem takeBranchRule_ok {b : BranchId} (ha : (s.branch b).access = .own) (hc : s.census ≠ .service) (hp : s.phase = .done) :
    takeBranchRule b.val s = (s.startTake b).deferred := by
  simp only [takeBranchRule, inRange_val, ha, hc, hp, ne_eq, not_true_eq_false, if_false]

/-- A branch as its take is accepted, before its arbiter runs (R111). -/
def State.taking (s : State) (b : BranchId) : State :=
  s.updBranch b fun br => { br with
    access := .taking
    queue := br.queue.filter fun e => (s.setsBack e).isNone && !e.idle
    backlog := (s.branch b).queue.filterMap s.setsBack ++ br.backlog }

theorem State.startTake_eq (s : State) (b : BranchId) : s.startTake b = (s.taking b).arbitrate b := rfl

theorem State.branch_taking (s : State) (b : BranchId) : (s.taking b).branch b = { s.branch b with
    access := .taking
    queue := (s.branch b).queue.filter fun e => (s.setsBack e).isNone && !e.idle
    backlog := (s.branch b).queue.filterMap s.setsBack ++ (s.branch b).backlog } :=
  State.branch_updBranch_self _ _ _

/-- No idle call waits behind a take (R107, R112). -/
theorem State.idle_startTake (s : State) (b : BranchId) (d : DropId) :
    .status d .idle ∉ ((s.startTake b).branch b).queue := by
  refine State.idle_arbitrate (s := s.taking b) (by rw [s.branch_taking]; nofun) (fun d hd => ?_) d
  rw [s.branch_taking] at hd
  have hkept := (List.mem_filter.1 hd).2
  simp [Entry.idle] at hkept

/-- With orders in flight the branch is TAKING, and no answer is made (R111). -/
theorem State.startTake_flying {b : BranchId} (hp : (s.branch b).poll ≠ []) : ((s.startTake b).branch b).access = .taking ∧
    ∀ q, (s.port q).Carries ((s.startTake b).port q) := by
  have hserve : s.startTake b = (s.taking b).serve b :=
    State.arbitrate_eq_serve (s := s.taking b) (.inr (by rw [s.branch_taking]; exact hp))
  rw [hserve]
  refine ⟨?_, ((s.taking b).drives_serve b).ports⟩
  rw [State.serve_access, s.branch_taking]

/-- With nothing on it the branch is TAKEN, and the answer is made (R111). -/
theorem State.startTake_empty {b : BranchId} (hp : (s.branch b).poll = []) (hq : (s.branch b).queue = [])
    (hl : (s.branch b).backlog = []) (hb : (s.branch b).bus = none) (hh : (s.branch b).haltPlace = false)
    (hd : (s.branch b).direct = none) (hr : (s.branch b).rollsLeft = []) :
    s.startTake b = ((s.taking b).updBranch b fun br => { br with access := .taken }).answerService .ok .none := by
  have hbr := s.branch_taking b
  rw [hq, hl] at hbr
  have hfill : (s.taking b).fillPlaces b = s.taking b := State.fillPlaces_of_none (by rw [hbr]; exact hp) (by rw [hbr]; rfl)
    (by rw [hbr]; exact hd) (by rw [hbr]; exact hr) (State.sweepable_of_access (by rw [hbr]; nofun))
  have hstart : (s.taking b).startBus b = s.taking b := by
    unfold State.startBus
    dsimp only
    rw [hbr, hb, hh]
    rfl
  have hserve : (s.taking b).serve b = s.taking b := by rw [State.serve, hfill, hstart, hfill]
  rw [State.startTake_eq, State.arbitrate_eq, hserve]
  refine if_pos ?_
  simp only [State.mayTake, Branch.busOrder, hbr, hp, hb]
  rfl

theorem State.SameField.ported {u : State} (h : s.SameField u) (ps : Table 3 Port) (st : Option Run) :
    s.SameField { u with ports := ps, stream := st } := { h with }

/-- The take leaves the slots, cells and records as they are. -/
theorem State.startTake_field (s : State) (b : BranchId) : s.SameField (s.startTake b) := by
  have h : s.SameField (s.taking b) := ⟨rfl, rfl, rfl, rfl, rfl, rfl, rfl, rfl, rfl⟩
  exact h.trans ((s.taking b).rests_arbitrate b).sameField

theorem State.takeInHand_field (s : State) (p : PortId) (c seq : Nat) : s.SameField (s.takeInHand p c seq) :=
  ⟨rfl, rfl, rfl, rfl, rfl, rfl, rfl, rfl, rfl⟩

/-- An answer made by the SERVICE port's rule while the request is in hand is the answer of the request. -/
theorem State.Takes.answers {p : PortId} {r : Role} {c : ReqCode} (hT : s.Takes p r c) (seq : Nat) (rule : State → Reply) {u : State}
    {x : Result} {f : AnswerFields} (hr : rule (s.takeInHand p c.number seq) = (u.answer p x f).deferred)
    (hu : u.port p = (s.takeInHand p c.number seq).port p) :
    s.Answers (s.request p c seq rule) p (c.answer seq x f) := by
  have hport := hu.trans (s.port_takeInHand p c.number seq)
  have hh : (u.port p).inHand = some { code := c.number, seq := seq } := by rw [hport]
  rw [State.request_takes hT, hr]
  constructor
  · show (u.answer p x f).kickPorts.lined p = _
    rw [State.kickPorts_lined, State.lined_answer p _ _ hh, State.lined_eq, hport]
    rfl
  · show ((u.answer p x f).kickPorts.port p).busy = true
    rw [State.kickPorts_busy, State.busy_answer, hport]

section
variable {p : PortId} (hT : s.Takes p .service .takeBranch) (seq : Nat) {b : BranchId} (ha : (s.branch b).access = .own)
  (hc : s.census ≠ .service) (hp : s.phase = .done)
include hT ha hc hp

/-- An accepted take: ports and stream apart, it is what the take does. -/
theorem State.Takes.takeBranch_eq : ∃ ps st, s.request p .takeBranch seq (takeBranchRule b.val) =
    { (s.takeInHand p ReqCode.takeBranch.number seq).startTake b with ports := ps, stream := st } :=
  hT.deferred_eq seq _ (takeBranchRule_ok (s := s.takeInHand p ReqCode.takeBranch.number seq) ha hc hp)

theorem State.Takes.takeBranch_field : s.SameField (s.request p .takeBranch seq (takeBranchRule b.val)) := by
  obtain ⟨ps, st, e⟩ := hT.takeBranch_eq seq ha hc hp
  have h := (s.takeInHand_field p ReqCode.takeBranch.number seq).trans (State.startTake_field _ b)
  rw [e]
  exact h.ported ps st

theorem State.Takes.takeBranch_branch : (s.request p .takeBranch seq (takeBranchRule b.val)).branch b =
    ((s.takeInHand p ReqCode.takeBranch.number seq).startTake b).branch b := by
  obtain ⟨ps, st, e⟩ := hT.takeBranch_eq seq ha hc hp
  generalize (s.takeInHand p ReqCode.takeBranch.number seq).startTake b = u at e ⊢
  rw [e]
  rfl

theorem State.Takes.takeBranch_flying (hpoll : (s.branch b).poll ≠ []) :
    ((s.request p .takeBranch seq (takeBranchRule b.val)).branch b).access = .taking ∧
      s.Defers (s.request p .takeBranch seq (takeBranchRule b.val)) p .takeBranch seq := by
  obtain ⟨hacc, hports⟩ := State.startTake_flying (s := s.takeInHand p ReqCode.takeBranch.number seq) hpoll
  have hrule := takeBranchRule_ok (s := s.takeInHand p ReqCode.takeBranch.number seq) (b := b) ha hc hp
  rw [hT.takeBranch_branch seq ha hc hp]
  generalize (s.takeInHand p ReqCode.takeBranch.number seq).startTake b = u at hacc hports hrule ⊢
  exact ⟨hacc, hT.defers seq _ hrule (hports p)⟩

theorem State.Takes.takeBranch_empty (hdist : s.RolesDistinct) (h1 : (s.branch b).poll = []) (h2 : (s.branch b).queue = [])
    (h3 : (s.branch b).backlog = []) (h4 : (s.branch b).bus = none) (h5 : (s.branch b).haltPlace = false)
    (h6 : (s.branch b).direct = none) (h7 : (s.branch b).rollsLeft = []) :
    ((s.request p .takeBranch seq (takeBranchRule b.val)).branch b).access = .taken ∧
      s.Answers (s.request p .takeBranch seq (takeBranchRule b.val)) p (ReqCode.takeBranch.answer seq .ok .none) := by
  have hrole (q : PortId) : ((s.takeInHand p ReqCode.takeBranch.number seq).port q).role = (s.port q).role := by
    by_cases h : p = q
    · subst h; rw [s.port_takeInHand]
    · rw [State.takeInHand, State.port_updPort_ne _ _ h]
  have hempty := State.startTake_empty (s := s.takeInHand p ReqCode.takeBranch.number seq) (b := b) h1 h2 h3 h4 h5 h6 h7
  have hanswer := State.answerService_eq_answer
    (s := ((s.takeInHand p ReqCode.takeBranch.number seq).taking b).updBranch b fun br => { br with access := .taken })
    ((hrole p).trans hT.role) (fun q hq => hdist q p _ ((hrole q).symm.trans hq) hT.role) .ok .none
  rw [hanswer] at hempty
  have hrule := takeBranchRule_ok (s := s.takeInHand p ReqCode.takeBranch.number seq) (b := b) ha hc hp
  rw [hT.takeBranch_branch seq ha hc hp]
  rw [hempty] at hrule ⊢
  refine ⟨?_, hT.answers seq _ hrule rfl⟩
  exact congrArg Branch.access (State.branch_updBranch_self ((s.takeInHand p ReqCode.takeBranch.number seq).taking b) b _)

end

/-! ### GIVE_BRANCH (R113) -/

theorem giveBranchRule_badArg {branch : Nat} (h : 3 < branch) : giveBranchRule branch s = s.reply .badArg := by
  simp only [giveBranchRule, inRange_eq_none (n := 4) h]

theorem giveBranchRule_notTaken {b : BranchId} (h : (s.branch b).access ≠ .taken) :
    giveBranchRule b.val s = s.reply .notTaken := by
  simp only [giveBranchRule, inRange_val, h, if_false]

/-- A branch as it is given back, before its arbiter runs. -/
def State.giving (s : State) (b : BranchId) : State := s.updBranch b fun br => { br with access := .own }

theorem giveBranchRule_ok {b : BranchId} (h : (s.branch b).access = .taken) :
    giveBranchRule b.val s = (((s.giving b).arbitrate b).causeScan).reply .ok := by
  simp only [giveBranchRule, inRange_val, h, if_true, State.giving]

/-- The arbiter of a branch given back: the branch is OWN, no answer is made, a sector in RUN stays so. -/
theorem State.arbitrate_giving (s : State) (b : BranchId) : (((s.giving b).arbitrate b).branch b).access = .own ∧
    (∀ q, (s.port q).Carries (((s.giving b).arbitrate b).port q)) ∧ s.SameField ((s.giving b).arbitrate b) ∧
    (s.sector = .run → ((s.giving b).arbitrate b).sector = .run) := by
  have hbr : ((s.giving b).branch b).access = .own := by rw [State.giving, State.branch_updBranch_self]
  have hrests := (s.giving b).rests_arbitrate b
  have hfield : s.SameField (s.giving b) := ⟨rfl, rfl, rfl, rfl, rfl, rfl, rfl, rfl, rfl⟩
  refine ⟨?_, ?_, hfield.trans hrests.sameField, fun hs => ?_⟩
  · rw [State.arbitrate_eq_serve (.inl (by rw [hbr]; nofun)), State.serve_access, hbr]
  · rw [State.arbitrate_eq_serve (.inl (by rw [hbr]; nofun))]
    exact ((s.giving b).drives_serve b).ports
  · have hs' : (s.giving b).sector = .run := hs
    exact (hrests.sector (by rw [hs']; decide) (by rw [hs']; decide)).trans hs

theorem State.Takes.giveBranch {p : PortId} (hT : s.Takes p .service .giveBranch) (seq : Nat) {b : BranchId}
    (ha : (s.branch b).access = .taken) {t : State} (ht : t = s.request p .giveBranch seq (giveBranchRule b.val)) :
    s.Answers t p (ReqCode.giveBranch.answer seq .ok .none) ∧ (t.branch b).access = .own ∧ s.SameField t ∧
      (s.sector = .run → t.scanDue = true) := by
  obtain ⟨h1, h2, h3, h4⟩ := (s.takeInHand p ReqCode.giveBranch.number seq).arbitrate_giving b
  have hrule := giveBranchRule_ok (s := s.takeInHand p ReqCode.giveBranch.number seq) (b := b) ha
  generalize ((s.takeInHand p ReqCode.giveBranch.number seq).giving b).arbitrate b = u at h1 h2 h3 h4 hrule
  have hdone := State.request_completes hT seq _ hrule h2
  rw [← ht] at hdone
  refine ⟨hdone.answered, ?_⟩
  rw [State.eq_of_apart hdone.apart]
  refine ⟨h1, { h3 with }, fun hs => ?_⟩
  show (u.scanDue || decide (u.sector = .run)) = true
  simp [h4 hs]

/-- Settles O47: the rules' outcomes, and the arbiter of the branch taken or given back. -/
theorem takeAndGiveBranch : Obligations.TakeAndGiveBranch := by
  constructor
  · refine fun s p seq branch hT => ⟨fun h => ⟨_, rfl, hT.completes_same seq _ (takeBranchRule_badArg h)⟩, ?_⟩
    rintro b rfl
    refine ⟨fun h => ⟨_, rfl, hT.completes_same seq _ ?_⟩, fun ha hc hp => ?_⟩
    · exact takeBranchRule_taken (s := s.takeInHand p ReqCode.takeBranch.number seq) h
    · refine ⟨_, rfl, hT.takeBranch_field seq ha hc hp, State.sameSetting_of_exec (c := .takeBranch p seq b.val) rfl rfl,
        fun d => ?_, hT.takeBranch_flying seq ha hc hp, fun h1 h2 h3 h4 h5 h6 h7 hdist =>
          hT.takeBranch_empty seq ha hc hp hdist h1 h2 h3 h4 h5 h6 h7⟩
      rw [hT.takeBranch_branch seq ha hc hp]
      exact State.idle_startTake _ b d
  · refine fun s p seq branch hT => ⟨fun h => ⟨_, rfl, hT.completes_same seq _ (giveBranchRule_badArg h)⟩, ?_⟩
    rintro b rfl
    refine ⟨fun h => ⟨_, rfl, hT.completes_same seq _ ?_⟩, fun ha => ?_⟩
    · exact giveBranchRule_notTaken (s := s.takeInHand p ReqCode.giveBranch.number seq) h
    · obtain ⟨h1, h2, h3, h4⟩ := hT.giveBranch seq ha rfl
      exact ⟨_, rfl, h1, h2, h3, State.sameSetting_of_exec (c := .giveBranch p seq b.val) rfl rfl, h4⟩

/-! ### DIRECT_FRAME (R112) -/

theorem directFrameRule_badArg {branch drop : Nat} {bytes : List Byte}
    (h : 3 < branch ∨ 23 < drop ∨ bytes.length < 1 ∨ 32 < bytes.length) :
    directFrameRule branch drop bytes s = s.reply .badArg := by
  have hread : readDirect branch drop bytes.length = none := by
    unfold readDirect
    split
    · rename_i b d hb hd
      have h1 := inRange_isSome.1 (Option.isSome_of_eq_some hb)
      have h2 := inRange_isSome.1 (Option.isSome_of_eq_some hd)
      exact if_neg (by omega)
    · rfl
  simp only [directFrameRule, hread]

/-- The arbiter of a branch with a direct frame: no answer is made, and the frame waits, is queued or is on the bus. -/
theorem State.arbitrate_direct (s : State) {b : BranchId} (ha : (s.branch b).access = .taken) (d : DropId) (bytes : List Byte)
    {t : State} (ht : t = (s.updBranch b fun br => { br with direct := some (d, bytes) }).arbitrate b) :
    (∀ q, (s.port q).Carries (t.port q)) ∧ s.SameField t ∧ ((t.branch b).direct = some (d, bytes) ∨
      .direct d bytes ∈ (t.branch b).queue ∨ (t.branch b).bus = some { call := .entry (.direct d bytes), left := 0 }) := by
  obtain ⟨v, hv⟩ : ∃ v, v = s.updBranch b fun br => { br with direct := some (d, bytes) } := ⟨_, rfl⟩
  have hbr : v.branch b = { s.branch b with direct := some (d, bytes) } := by rw [hv, State.branch_updBranch_self]
  have hfield : s.SameField v := by
    rw [hv]
    exact ⟨rfl, rfl, rfl, rfl, rfl, rfl, rfl, rfl, rfl⟩
  have hports (q : PortId) : (s.port q).Carries (v.port q) := by
    rw [hv]
    exact .refl _
  have howes := State.owes_arbitrate (s := v) (b := b) (e := .direct d bytes) (.inl (by rw [hbr]))
  have hserve := State.arbitrate_eq_serve (s := v) (b := b) (.inl (by rw [hbr, ha]; nofun))
  rw [← hv] at ht
  rw [ht]
  refine ⟨fun q => ?_, hfield.trans (v.rests_arbitrate b).sameField, ?_⟩
  · rw [hserve]
    exact (hports q).trans ((v.drives_serve b).ports q)
  · exact howes.elim (fun h => h.imp_right .inl) fun h => .inr (.inr h)

section
variable {b : BranchId} {d : DropId} {bytes : List Byte} (h1 : 1 ≤ bytes.length) (h2 : bytes.length ≤ 32)
include h1 h2

theorem readDirect_val : readDirect b.val d.val bytes.length = some (b, d) := by
  simp only [readDirect, inRange_val]
  exact if_pos ⟨h1, h2⟩

theorem directFrameRule_notTaken (h : (s.branch b).access ≠ .taken) :
    directFrameRule b.val d.val bytes s = s.reply .notTaken := by
  simp only [directFrameRule, readDirect_val h1 h2, h, if_false]

theorem directFrameRule_ok (h : (s.branch b).access = .taken) : directFrameRule b.val d.val bytes s =
    ((s.updBranch b fun br => { br with direct := some (d, bytes) }).arbitrate b).deferred := by
  simp only [directFrameRule, readDirect_val h1 h2, h, if_true]

theorem State.Takes.directFrame {p : PortId} (hT : s.Takes p .service .directFrame) (seq : Nat)
    (ha : (s.branch b).access = .taken) {t : State}
    (ht : t = s.request p .directFrame seq (directFrameRule b.val d.val bytes)) :
    s.Defers t p .directFrame seq ∧ s.SameField t ∧ ((t.branch b).direct = some (d, bytes) ∨
      .direct d bytes ∈ (t.branch b).queue ∨
      (t.branch b).bus = some { call := .entry (.direct d bytes), left := 0 }) := by
  have hrule := directFrameRule_ok (s := s.takeInHand p ReqCode.directFrame.number seq) (d := d) h1 h2 ha
  obtain ⟨ps, st, e⟩ := hT.deferred_eq seq _ hrule
  obtain ⟨h3, h4, h5⟩ := (s.takeInHand p ReqCode.directFrame.number seq).arbitrate_direct ha d bytes rfl
  generalize ((s.takeInHand p ReqCode.directFrame.number seq).updBranch b _).arbitrate b = u at e h3 h4 h5 hrule
  rw [← ht] at e
  refine ⟨ht ▸ hT.defers seq _ hrule (h3 p), ?_⟩
  rw [e]
  exact ⟨((s.takeInHand_field p _ seq).trans h4).ported ps st, h5⟩

end

/-! ### CENSUS (R110) -/

theorem censusRule_working (h : ∃ n, (s.slot n).state = .moving ∨ (s.slot n).state = .dwelling) : censusRule s = s.reply .busy := by
  obtain ⟨n, hn⟩ := h
  refine if_pos (List.any_eq_true.2 ⟨s.slot n, Table.mem_items.2 ⟨n, rfl⟩, ?_⟩)
  simpa [Slot.working] using hn

section
variable (hs : ∀ n, (s.slot n).state ≠ .moving ∧ (s.slot n).state ≠ .dwelling)
include hs

theorem State.none_working : ¬ s.slots.items.any Slot.working = true := by
  intro h
  obtain ⟨sl, hsl, hw⟩ := List.any_eq_true.1 h
  obtain ⟨n, rfl⟩ := Table.mem_items.1 hsl
  simp only [Slot.working, Bool.or_eq_true, decide_eq_true_eq] at hw
  exact hw.elim (hs n).1 (hs n).2

theorem censusRule_taken (h : ∃ b, (s.branch b).access ≠ .own) : censusRule s = s.reply .taken := by
  obtain ⟨b, hb⟩ := h
  rw [censusRule, if_neg (State.none_working hs),
    if_pos (List.any_eq_true.2 ⟨s.branch b, Table.mem_items.2 ⟨b, rfl⟩, decide_eq_true hb⟩)]

variable (ho : ∀ b, (s.branch b).access = .own)
include ho

theorem censusRule_own : censusRule s = if s.census ≠ .none then s.reply .busy
    else if s.phase ≠ .done then s.reply .busy else (s.beginCensus .service).runBuses.deferred := by
  refine (if_neg (State.none_working hs)).trans (if_neg fun h => ?_)
  obtain ⟨br, hbr, hne⟩ := List.any_eq_true.1 h
  obtain ⟨b, rfl⟩ := Table.mem_items.1 hbr
  exact of_decide_eq_true hne (ho b)

theorem censusRule_busy (h : s.census ≠ .none ∨ s.phase ≠ .done) : censusRule s = s.reply .busy := by
  rw [censusRule_own hs ho]
  split
  · rfl
  · rename_i hc
    exact if_pos (h.resolve_left hc)

theorem censusRule_ok (hc : s.census = .none) (hp : s.phase = .done) :
    censusRule s = (s.beginCensus .service).runBuses.deferred := by
  rw [censusRule_own hs ho, if_neg (not_not.2 hc), if_neg (not_not.2 hp)]

end

/-- A SERVICE CENSUS as it begins (R110): every branch OWN, with no result yet and each roll call owed or on the bus; no answer made. -/
structure State.Polling (s t : State) : Prop where
  census : t.census = .service
  phase : t.phase = .done
  field : s.SameField t
  ports : ∀ q, (s.port q).Carries (t.port q)
  own : ∀ b, (t.branch b).access = .own
  none : ∀ b, (t.branch b).rollsDone = 0
  rolls : ∀ b d, d ∈ (t.branch b).rollsLeft ∨ .roll d ∈ (t.branch b).queue ∨
    (t.branch b).bus = some { call := .entry (.roll d), left := 2 }

theorem State.Polling.arbitrate {t : State} (h : s.Polling t) (b : BranchId) : s.Polling (t.arbitrate b) := by
  have hrests := t.rests_arbitrate b
  have hserve := State.arbitrate_eq_serve (s := t) (b := b) (.inl (by rw [h.own]; nofun))
  have hdrives := t.drives_serve b
  rw [← hserve] at hdrives
  refine ⟨hdrives.census.trans h.census, hdrives.phase.trans h.phase, h.field.trans hrests.sameField,
    fun q => (h.ports q).trans (hdrives.ports q), fun c => ?_, fun c => ?_, fun c d => ?_⟩
  · obtain e | ⟨e, -⟩ := (hrests.branches c).access
    · exact e.trans (h.own c)
    · rw [h.own] at e
      cases e
  · exact (hrests.branches c).rolls.elim (fun e => e.trans (h.none c)) id
  · by_cases hbc : b = c
    · subst hbc
      obtain hr | hr | hr := h.rolls b d
      · exact (State.owes_arbitrate (e := .roll d) (.inl hr)).elim (fun h => h.imp_right .inl) fun h => .inr (.inr h)
      · exact (State.owes_arbitrate (e := .roll d) (.inr hr)).elim (fun h => h.imp_right .inl) fun h => .inr (.inr h)
      · exact .inr (.inr (((hrests.branches b).bus (by rw [hr]; rfl)).trans hr))
    · rw [t.arbitrate_others hbc]
      exact h.rolls c d

theorem State.Polling.arbitrateAll {t : State} (h : s.Polling t) : s.Polling t.arbitrateAll :=
  foldl_keeps (P := s.Polling) (fun _ b h => h.arbitrate b) h

/-- The census goes on: its roll calls are to be made. -/
theorem State.Polling.advance {t : State} (h : s.Polling t) : t.advance = t := by
  have hover : ¬ t.rollsOver = true := by
    intro hover
    have h0 := List.all_eq_true.1 hover (t.branch 0) (Table.mem_items.2 ⟨0, rfl⟩)
    rw [h.none] at h0
    cases h0
  have hphase : ¬ (t.phase = .halt ∧ t.branches.items.all (fun br => !br.halting) = true) := by rw [h.phase]; nofun
  have hcensus : ¬ (t.census = .startup ∧ t.rollsOver = true) := by rw [h.census]; nofun
  rw [State.advance, if_neg hphase, if_neg hcensus, if_neg fun e => hover e.2]

theorem State.polling_beginCensus (ho : ∀ b, (s.branch b).access = .own) (hp : s.phase = .done) :
    s.Polling (s.beginCensus .service) := by
  have hbr (b : BranchId) : (s.beginCensus .service).branch b = { s.branch b with rollsLeft := allDrops, rollsDone := 0 } :=
    Table.get_map _ _ _
  refine ⟨rfl, hp, ⟨rfl, rfl, rfl, rfl, rfl, rfl, rfl, rfl, rfl⟩, fun _ => .refl _, fun b => ?_, fun b => ?_, fun b d => .inl ?_⟩
  · rw [hbr]
    exact ho b
  · rw [hbr]
  · rw [hbr]
    exact List.mem_finRange d

theorem State.Takes.census {p : PortId} (hT : s.Takes p .service .census) (seq : Nat)
    (hs : ∀ n, (s.slot n).state ≠ .moving ∧ (s.slot n).state ≠ .dwelling) (ho : ∀ b, (s.branch b).access = .own)
    (hc : s.census = .none) (hp : s.phase = .done) {t : State} (ht : t = s.request p .census seq censusRule) :
    s.Defers t p .census seq ∧ t.census = .service ∧ s.SameField t ∧
      ∀ b, (t.branch b).rollsDone = 0 ∧ ∀ d, d ∈ (t.branch b).rollsLeft ∨ .roll d ∈ (t.branch b).queue ∨
        (t.branch b).bus = some { call := .entry (.roll d), left := 2 } := by
  have hrule := censusRule_ok (s := s.takeInHand p ReqCode.census.number seq) hs ho hc hp
  have hpolling := (State.polling_beginCensus (s := s.takeInHand p ReqCode.census.number seq) ho hp).arbitrateAll
  rw [State.runBuses, hpolling.advance] at hrule
  generalize ((s.takeInHand p ReqCode.census.number seq).beginCensus .service).arbitrateAll = u at hpolling hrule
  obtain ⟨ps, st, e⟩ := hT.deferred_eq seq _ hrule
  have hdefers := hT.defers seq _ hrule (hpolling.ports p)
  rw [← ht] at hdefers e
  refine ⟨hdefers, ?_⟩
  rw [e]
  exact ⟨hpolling.census, ((s.takeInHand_field p _ seq).trans hpolling.field).ported ps st,
    fun b => ⟨hpolling.none b, hpolling.rolls b⟩⟩

/-- Settles O48: the rules' outcomes in their order; a call that is owed stays owed, or is on the bus, behind the arbiter. -/
theorem directFrameAndCensus : Obligations.DirectFrameAndCensus := by
  constructor
  · refine fun s p seq branch drop bytes hT => ⟨fun h => ⟨_, rfl, hT.completes_same seq _ (directFrameRule_badArg h)⟩, ?_⟩
    rintro b d rfl rfl h1 h2
    refine ⟨fun h => ⟨_, rfl, hT.completes_same seq _ ?_⟩, fun ha => ?_⟩
    · exact directFrameRule_notTaken (s := s.takeInHand p ReqCode.directFrame.number seq) h1 h2 h
    · obtain ⟨hdefers, hfield, hdirect⟩ := hT.directFrame h1 h2 (d := d) seq ha rfl
      exact ⟨_, rfl, hdefers, hfield, State.sameSetting_of_exec (c := .directFrame p seq b.val d.val bytes) rfl rfl, hdirect⟩
  · refine fun s p seq hT => ⟨fun h => ⟨_, rfl, hT.completes_same seq _ ?_⟩,
      fun hs => ⟨fun h => ⟨_, rfl, hT.completes_same seq _ ?_⟩,
      fun ho => ⟨fun h => ⟨_, rfl, hT.completes_same seq _ ?_⟩, fun hc hp => ?_⟩⟩⟩
    · exact censusRule_working (s := s.takeInHand p ReqCode.census.number seq) h
    · exact censusRule_taken (s := s.takeInHand p ReqCode.census.number seq) hs h
    · exact censusRule_busy (s := s.takeInHand p ReqCode.census.number seq) hs ho h
    · obtain ⟨hdefers, hcensus, hfield, hrolls⟩ := hT.census seq hs ho hc hp rfl
      exact ⟨_, rfl, hdefers, hcensus, hfield, State.sameSetting_of_exec (c := .census p seq) rfl rfl, hrolls⟩

end Sys2Proof.Machine
end

section
/-! SUPPORT. What the ends of segments leave of the slots (R16, R49, R85): who stands where, the fault codes, the clock and the senses;
and the end of a dwell (R86). -/

namespace Sys2Proof.Machine

variable {s : State}

/-! ### Segments leave their chains -/

/-- From `s` to `t` segments closed or went back to CHAINED: the clock stands, the slots are the same but for their chains. -/
structure State.Unchains (s t : State) : Prop where
  now : t.now = s.now
  slot : ∀ n, ∃ l, t.slot n = { s.slot n with chain := l }
  empty : ∀ id, s.seg id = none → t.seg id = none

theorem State.Unchains.of_eq {s t : State} (hn : t.now = s.now) (hs : t.slots = s.slots) (hp : t.pool = s.pool) : s.Unchains t :=
  ⟨hn, fun n => ⟨(s.slot n).chain, by rw [State.slot, hs]; rfl⟩, fun id h => by rw [State.seg, hp]; exact h⟩

theorem State.Unchains.refl (s : State) : s.Unchains s := .of_eq rfl rfl rfl

theorem State.Unchains.trans {s t u : State} (h : s.Unchains t) (k : t.Unchains u) : s.Unchains u where
  now := k.now.trans h.now
  slot n := by
    obtain ⟨_, e⟩ := h.slot n
    obtain ⟨l, e'⟩ := k.slot n
    exact ⟨l, by rw [e', e]⟩
  empty id hid := k.empty id (h.empty id hid)

theorem State.Unchains.foldl {α : Type} {f : State → α → State} (hf : ∀ (s : State) a, s.Unchains (f s a)) (l : List α)
    (s : State) : s.Unchains (l.foldl f s) :=
  foldl_keeps (P := s.Unchains) (fun t a h => h.trans (hf t a)) (.refl s)

section
variable (s : State)

/-- The withdrawal of a claim concerns cells, queue and link alone (R31, R87). -/
theorem State.unchains_withdrawClaim (n : SlotId) : s.Unchains (s.withdrawClaim n) := by
  unfold State.withdrawClaim
  split
  · split
    · dsimp only
      split <;> exact .of_eq rfl rfl rfl
    · exact .refl s
  · exact .refl s

theorem State.unchains_withdrawClaimFor (n : SlotId) (id : SegId) : s.Unchains (s.withdrawClaimFor n id) := by
  unfold State.withdrawClaimFor
  split
  · split
    · exact s.unchains_withdrawClaim n
    · exact .refl s
  · exact .refl s

theorem State.unchains_updSlot (n : SlotId) (f : List SegId → List SegId) :
    s.Unchains (s.updSlot n fun sl => { sl with chain := f sl.chain }) := by
  refine ⟨rfl, fun m => ?_, fun _ h => h⟩
  by_cases e : n = m
  · subst e
    exact ⟨_, State.slot_updSlot_self _ _ _⟩
  · exact ⟨_, State.slot_updSlot_ne _ _ e⟩

theorem State.unchains_updBatch (id : Nat) (f : Batch → Batch) : s.Unchains (s.updBatch id f) := .of_eq rfl rfl rfl

theorem State.unchains_free (id : SegId) : s.Unchains { s with pool := s.pool.set id none } := by
  refine ⟨rfl, fun _ => ⟨_, rfl⟩, fun i h => ?_⟩
  rw [State.seg, Table.get_set]
  split
  · rfl
  · exact h

theorem State.unchains_closeSeg (id : SegId) (o : SegOutcome) : s.Unchains (s.closeSeg id o) := by
  have hnotice (g : Segment) (u : State) : u.Unchains (u.closeNotice g o) := by
    cases o <;> exact .of_eq rfl rfl rfl
  have hclose (g : Segment) (u : State) : u.Unchains (State.updSlot
      { ((u.closeNotice g o).withdrawClaimFor g.slot id).updBranch (branchOf g.slot) fun br => br.forget id with
        pool := ((u.closeNotice g o).withdrawClaimFor g.slot id).pool.set id none } g.slot fun sl =>
          { sl with chain := sl.chain.filter fun i => decide (i ≠ id) }) := by
    have h := (hnotice g u).trans (State.unchains_withdrawClaimFor _ g.slot id)
    have hbr : u.Unchains (((u.closeNotice g o).withdrawClaimFor g.slot id).updBranch (branchOf g.slot) fun br => br.forget id) :=
      h.trans (.of_eq rfl rfl rfl)
    exact (hbr.trans (State.unchains_free _ id)).trans (State.unchains_updSlot _ g.slot fun l => l.filter fun i => decide (i ≠ id))
  unfold State.closeSeg
  split
  · exact .refl s
  · dsimp only
    split
    · exact (s.unchains_updBatch _ _).trans (hclose _ _)
    · exact hclose _ s

/-- A segment that closes is gone. -/
theorem State.seg_closeSeg_self (id : SegId) (o : SegOutcome) : (s.closeSeg id o).seg id = none := by
  cases hg : s.seg id with
  | none => rw [State.closeSeg_of_none hg, hg]
  | some g => rw [State.seg, (State.closes_closeSeg hg o).pool, Table.get_set, if_pos rfl]

theorem State.unchains_skipWhere (n : SlotId) (p : Segment → Option SkipReason) : s.Unchains (s.skipWhere n p) := by
  refine .foldl (fun s x => ?_) _ s
  split
  · exact s.unchains_closeSeg _ _
  · exact .refl s

theorem State.unchains_skipRule (n : SlotId) (b : Option Nat) : s.Unchains (s.skipRule n b) := by
  unfold State.skipRule
  split
  · exact s.unchains_skipWhere n _
  · exact .refl s

theorem State.unchains_updSeg (id : SegId) (f : Segment → Segment) : s.Unchains (s.updSeg id f) := by
  refine ⟨rfl, fun _ => ⟨_, rfl⟩, fun i h => ?_⟩
  by_cases e : id = i
  · subst e
    rw [State.seg_updSeg_self, h, Option.map_none]
  · rw [State.seg_updSeg_ne _ _ e, h]

theorem State.unchains_withdrawSeg (n : SlotId) (id : SegId) (g : Segment) : s.Unchains (s.withdrawSeg n id g) := by
  have hremove : s.Unchains (s.removeOrder n id) := .of_eq rfl rfl rfl
  unfold State.withdrawSeg
  dsimp only
  split
  · exact hremove.trans (State.unchains_closeSeg _ _ _)
  · exact hremove.trans (State.unchains_updSeg _ _ _)

theorem State.unchains_withdrawGranted (n : SlotId) : s.Unchains (s.withdrawGranted n) :=
  .foldl (fun s (x : SegId × Segment) => s.unchains_withdrawSeg n x.1 x.2) _ s

end

/-! ### Who stands where -/

/-- From `s` to `t` no robot moved, no fault code changed, no segment began, and the clock stands. -/
structure State.Stands (s t : State) : Prop where
  now : t.now = s.now
  stand : ∀ n, (t.slot n).stand = (s.slot n).stand
  fault : ∀ n, (t.slot n).fault = (s.slot n).fault
  empty : ∀ id, s.seg id = none → t.seg id = none

theorem State.Stands.trans {s t u : State} (h : s.Stands t) (k : t.Stands u) : s.Stands u :=
  ⟨k.now.trans h.now, fun n => (k.stand n).trans (h.stand n), fun n => (k.fault n).trans (h.fault n),
    fun id hid => k.empty id (h.empty id hid)⟩

theorem State.Stands.of_eq {s t : State} (hn : t.now = s.now) (hs : t.slots = s.slots) (hp : t.pool = s.pool) : s.Stands t :=
  ⟨hn, fun n => by rw [State.slot, hs]; rfl, fun n => by rw [State.slot, hs]; rfl, fun id h => by rw [State.seg, hp]; exact h⟩

/-- A start that differs in neither clock, slots nor segments. -/
theorem State.Stands.since {s t u : State} (h : t.Stands u) (hn : t.now = s.now) (hs : t.slots = s.slots) (hp : t.pool = s.pool) :
    s.Stands u := (State.Stands.of_eq hn hs hp).trans h

theorem State.Stands.refl (s : State) : s.Stands s := .of_eq rfl rfl rfl

theorem State.Unchains.stands {s t : State} (h : s.Unchains t) : s.Stands t := by
  refine ⟨h.now, fun n => ?_, fun n => ?_, h.empty⟩ <;>
  · obtain ⟨_, e⟩ := h.slot n
    rw [e]

theorem State.Rejudged.stands {s t : State} (h : s.Rejudged t) : s.Stands t :=
  ⟨by rw [h.rest], h.stand, h.fault, fun id hid => by rw [State.seg, h.pool]; exact hid⟩

theorem State.Rests.stands {s t : State} (h : s.Rests t) : s.Stands t :=
  ⟨h.now, fun n => by rw [State.slot, h.slots]; rfl, fun n => by rw [State.slot, h.slots]; rfl, h.empty⟩

section
variable (s : State)

theorem State.stands_settleCells (n : SlotId) : s.Stands (s.settleCells n) := .of_eq rfl rfl rfl
theorem State.stands_settleState (n : SlotId) : s.Stands (s.settleState n) := (s.rejudged_settleState n).stands
theorem State.stands_judge (n : SlotId) : s.Stands (s.judge n) := (s.rejudged_judge n).stands

theorem State.stands_endBatches : s.Stands s.endBatches := by
  obtain ⟨_, _, _, _, _, e⟩ := s.endBatches_eq
  rw [e]
  exact .of_eq rfl rfl rfl

theorem State.stands_finishHalt (b : BranchId) : s.Stands (s.finishHalt b) :=
  State.Rests.stands (s.quiet_rests.finishHalt (.refl s) b)

/-- A robot that comes to stand where it stands. -/
theorem State.stands_moveStand_self {n : SlotId} {st : Stand} (h : (s.slot n).stand = st) : s.Stands (s.moveStand n st) := by
  refine .of_eq ?_ ?_ (s.pool_moveStand n _)
  · unfold State.moveStand
    dsimp only
    repeat' split
    all_goals rfl
  · rw [State.slots_moveStand]
    exact Table.upd_eq_self _ _ (by rw [← h]; rfl)

theorem State.stands_dispatch (n : SlotId) (id : SegId) : s.Stands (s.dispatch n id) := by
  have hwork (g : Segment) : s.Stands (s.updSlot n fun sl => { sl with state := g.body.workState }) :=
    (s.rejudged_updSlot n fun _ => ⟨_, rfl⟩).stands
  unfold State.dispatch
  split
  · exact .refl s
  · rename_i g _
    dsimp only
    split
    · exact (hwork g).trans ((State.unchains_updSeg _ id _).stands.since rfl rfl rfl)
    · exact (hwork g).trans (.of_eq rfl rfl rfl)

theorem State.stands_nextSeg (n : SlotId) : s.Stands (s.nextSeg n) := by
  unfold State.nextSeg
  split
  · exact s.stands_dispatch n _
  · exact s.stands_settleState n

end

/-! ### The senses -/

/-- No operation but a STATUS reply changes the senses. -/
theorem stable_senses (x : Table 96 SenseRec) : Stable fun s => s.senses = x where
  seg _ _ _ h := h
  free _ h := h
  scanDue _ h := h
  haltOut _ h := h
  branches _ _ h := h
  census _ h := h
  links _ _ h := h
  phase _ h := h
  sector _ _ _ h := h
  raise _ h := h
  answer _ _ _ h := h
  updSlot _ _ _ h := h
  updCells _ h := h
  takeCells _ _ _ h := h
  close _ h := h
  queue _ _ h := h
  joinQueue _ _ h := h
  dwell _ h := h
  startStop _ h := h
  anyBranch _ _ h := h
  anyLink _ _ h := h
  now _ h := h
  enter _ _ _ h := h
  count _ _ h := h
  endBatches h := (State.endBatches_frame _).2.2.2.trans h
  moveStand n st h := by
    refine Eq.trans ?_ h
    unfold State.moveStand
    dsimp only
    repeat' split
    all_goals rfl
  fault _ _ h := h

/-! ### The end of a dwell (R86) -/

theorem State.endDwell_of_dwell {n : SlotId} {id : SegId} {g : Segment} {x : Nat} (h : s.activeDwell n = some (id, g))
    (hb : g.body = .dwell x) : s.endDwell n = ((((State.moveStand { s with dwell := s.dwell.set n none } n (s.slot n).stand).closeSeg
      id .done).settleCells n).nextSeg n) := by
  rw [State.endDwell, h]
  simp only [State.doneSeg, hb]
  rfl

/-- The dwell closes, and no robot moves. -/
theorem State.endDwell_effect {n : SlotId} {id : SegId} {g : Segment} {x : Nat} (h : s.activeDwell n = some (id, g))
    (hb : g.body = .dwell x) : s.Stands (s.endDwell n) ∧ (s.endDwell n).seg id = none := by
  have hmoved : s.Stands (State.moveStand { s with dwell := s.dwell.set n none } n (s.slot n).stand) :=
    (State.stands_moveStand_self { s with dwell := s.dwell.set n none } rfl).since rfl rfl rfl
  rw [State.endDwell_of_dwell h hb]
  generalize State.moveStand { s with dwell := s.dwell.set n none } n (s.slot n).stand = u at hmoved ⊢
  have hrest := (State.stands_settleCells (u.closeSeg id .done) n).trans (State.stands_nextSeg _ n)
  exact ⟨(hmoved.trans (u.unchains_closeSeg id .done).stands).trans hrest, hrest.empty id (u.seg_closeSeg_self id .done)⟩

theorem dwellTimerEnd_effect {n : SlotId} {at' x : Nat} {id : SegId} {g : Segment} (hr : s.resetHeld = false)
    (hd : s.dwell.get n = some at') (h : s.activeDwell n = some (id, g)) (hb : g.body = .dwell x) :
    ∃ t, exec (.dwellTimerEnd n) s = .next t ∧ t.now = max s.now at' ∧ t.seg id = none ∧
      (∀ m, (t.slot m).stand = (s.slot m).stand ∧ (t.slot m).fault = (s.slot m).fault) ∧ t.senses = s.senses ∧
      s.SameSetting t := by
  have hx : exec (.dwellTimerEnd n) s =
      .next (s.busEvent fun s => (((s.clockTo at').endDwell n).judge n).endBatches) := by
    show execDwellTimerEnd n s = _
    simp only [execDwellTimerEnd, hd]
  have hsenses := (stable_senses s.senses).toCalm.endBatches
    ((stable_senses s.senses).toCalm.judge ((stable_senses s.senses).endDwell (s := s.clockTo at') rfl n) n)
  obtain ⟨hends, hgone⟩ := State.endDwell_effect (s := s.clockTo at') h hb
  have hrest := (((s.clockTo at').endDwell n).stands_judge n).trans (State.stands_endBatches _)
  obtain ⟨u, ps, st, hu, e⟩ := State.busEvent_eq hr fun s => (((s.clockTo at').endDwell n).judge n).endBatches
  have hall := (hends.trans hrest).trans hu.stands
  have hnone := hu.stands.empty id (hrest.empty id hgone)
  refine ⟨_, hx, ?_, ?_, fun m => ?_, ?_, State.sameSetting_of_exec rfl hx⟩
  all_goals rw [e]
  · exact hall.now
  · exact hnone
  · exact ⟨hall.stand m, hall.fault m⟩
  · exact hu.senses.trans hsenses

/-- Settles O46: each timer's mark is set or cleared, and the arbiter keeps it or sends the call. -/
theorem timersEnd : Obligations.TimersEnd := by
  refine ⟨fun _ _ _ _ hr h1 h2 => settleEnd_effect hr h1 h2, fun _ _ _ _ _ hr ho hd hw => nakBusyWaitEnd_effect hr ho hd hw,
    fun _ _ _ _ hr he hd hf => statusCallDue_effect hr he hd hf, fun _ _ _ _ hr he hf => stallLimit_effect hr he hf,
    fun _ _ _ _ hr h1 h2 => idleCallDue_effect hr h1 h2, fun _ _ _ h => exec_settleEnd_idle h, fun _ _ _ h => exec_pollTimers_idle h,
    fun _ _ _ _ _ _ hr hd h hb => dwellTimerEnd_effect hr hd h hb, fun _ _ h => exec_dwellTimerEnd_idle h,
    fun _ _ _ _ hr he hb => backoffEnd_effect hr he hb, fun _ _ h => exec_backoffEnd_idle h⟩

end Sys2Proof.Machine
end

section
/-! SUPPORT. STATUS replies (R107, R146 to R148): what the senses of a slot become, and that nothing after them changes the senses. -/

namespace Sys2Proof.Machine

variable {s : State}

/-- The sense record of a slot whose present senses are replaced at a time: a mismatch sets the change flag (R147, R148). -/
def SenseRec.taking (r : SenseRec) (x : Senses) (t : Nat) : SenseRec :=
  { r with present := some (x, t), changed := r.changed || SenseRec.mismatch { r with present := some (x, t) } }

/-- Taken senses change the record of one slot, and may raise a notice. -/
theorem State.takeSenses_eq (s : State) (n : SlotId) (x : Senses) :
    ∃ ps, s.takeSenses n x = { s with senses := s.senses.upd n fun r => r.taking x s.now, ports := ps } := by
  have hupd (r : SenseRec) (h : r = (s.sense n).taking x s.now) :
      (s.updSense n fun _ => r) = { s with senses := s.senses.upd n fun r => r.taking x s.now } := by
    rw [h]
    rfl
  unfold State.takeSenses
  dsimp only
  split
  · rename_i h
    rw [hupd _ (by simp [SenseRec.taking, (Bool.and_eq_true_iff.1 h).1])]
    exact ⟨_, rfl⟩
  · rename_i h
    rw [hupd _ (by cases hc : (s.sense n).changed <;> simp_all [SenseRec.taking])]
    exact ⟨s.ports, rfl⟩

theorem Senses.differ_iff {w a b : Senses} : Senses.differ w a b = true ↔
    (w.theta = true ∧ a.theta ≠ b.theta) ∨ (w.phi = true ∧ a.phi ≠ b.phi) ∨ (w.contact = true ∧ a.contact ≠ b.contact) := by
  simp only [Senses.differ, Bool.or_eq_true, Bool.and_eq_true, bne_iff_ne, or_assoc]

/-- The change flag after a reply: set before, or a watched sense differs from the snapshot (R146, R148). -/
theorem SenseRec.changed_taking (r : SenseRec) (x : Senses) (t : Nat) : (r.taking x t).changed = true ↔ r.changed = true ∨
    ∃ y, r.snapshot = some y ∧ ((r.watch.theta = true ∧ x.theta ≠ y.theta) ∨ (r.watch.phi = true ∧ x.phi ≠ y.phi) ∨
      (r.watch.contact = true ∧ x.contact ≠ y.contact)) := by
  rw [SenseRec.taking, Bool.or_eq_true]
  cases r.snapshot with
  | none => simp [SenseRec.mismatch]
  | some y => simp [SenseRec.mismatch, Senses.differ_iff]

/-- The completion a status may bring changes no senses. -/
theorem State.readStatus_senses (s : State) (b : BranchId) (d : DropId) (final : Bool) (r : StatusReply) :
    (s.readStatus b d final r).senses = s.senses := by
  have hcomplete (id : SegId) (x y : Bool) (o : SegOutcome) (i j : Int) : (s.complete b d id x y o i j).senses = s.senses :=
    (stable_senses s.senses).complete (s := s) rfl b d id x y o i j
  unfold State.readStatus
  split
  · rfl
  split
  · rfl
  split
  · exact hcomplete _ _ _ _ _ _
  split
  · exact hcomplete _ _ _ _ _ _
  · rfl

/-- A STATUS reply to any call replaces the slot's senses. -/
theorem State.takeStatus_senses (s : State) (b : BranchId) (d : DropId) (w : Purpose) (r : StatusReply) :
    (s.takeStatus b d w r).senses = s.senses.upd (slotOf b d) fun x => x.taking r.senses s.now := by
  obtain ⟨ps, e⟩ := (s.freeBus b).takeSenses_eq (slotOf b d) r.senses
  have hsenses : ((s.freeBus b).takeSenses (slotOf b d) r.senses).senses =
      s.senses.upd (slotOf b d) fun x => x.taking r.senses s.now := by
    rw [e]
    rfl
  cases w with
  | idle => exact hsenses
  | poll => exact (State.readStatus_senses _ b d false r).trans hsenses
  | final => exact (State.readStatus_senses _ b d true r).trans hsenses

theorem exec_status {b : BranchId} {d : DropId} {w : Purpose} {l : Nat} (r : StatusReply)
    (h : (s.branch b).bus = some { call := .entry (.status d w), left := l }) :
    exec (.status b d r) s = .next (s.busEvent fun s => s.takeStatus b d w r) := by
  show execStatus b d r s = _
  simp only [execStatus, h, if_true]

/-- A STATUS to no call of its drop is discarded (R91). -/
theorem exec_status_discarded {b : BranchId} {d : DropId} (r : StatusReply)
    (h : ∀ w l, (s.branch b).bus ≠ some { call := .entry (.status d w), left := l }) : exec (.status b d r) s = .next s := by
  show execStatus b d r s = _
  unfold execStatus
  split
  · rename_i e w l hb
    refine if_neg ?_
    rintro rfl
    exact h w l hb
  · rfl

/-- Settles O40: the reply's senses are taken first, and nothing after them changes the senses. -/
theorem statusTakesSenses : Obligations.StatusTakesSenses := by
  refine ⟨fun s b d w l r hr hb => ?_, fun s b d r h => exec_status_discarded r h⟩
  have hx := exec_status r hb
  obtain ⟨u, ps, st, hu, e⟩ := State.busEvent_eq hr fun s => s.takeStatus b d w r
  have hsenses : u.senses = s.senses.upd (slotOf b d) fun x => x.taking r.senses s.now :=
    hu.senses.trans (s.takeStatus_senses b d w r)
  have hsense : u.sense (slotOf b d) = (s.sense (slotOf b d)).taking r.senses s.now := by
    rw [State.sense, hsenses, Table.get_upd_self]
    rfl
  have hothers : ∀ m, m ≠ slotOf b d → u.sense m = s.sense m := fun m hm => by
    rw [State.sense, hsenses, Table.get_upd_ne _ _ (Ne.symm hm)]
    rfl
  refine ⟨_, hx, ?_, ?_, ?_, ?_, ?_, State.sameSetting_of_exec rfl hx, ?_⟩
  all_goals rw [e]
  · exact congrArg SenseRec.present hsense
  · exact (congrArg SenseRec.snapshot hsense :)
  · exact (congrArg SenseRec.watch hsense :)
  · have hchanged := (s.sense (slotOf b d)).changed_taking r.senses s.now
    rw [← hsense] at hchanged
    exact hchanged
  · exact hothers
  · rintro rfl
    obtain ⟨_, hidle⟩ := (s.freeBus b).takeSenses_eq (slotOf b d) r.senses
    replace hu : ((s.freeBus b).takeSenses (slotOf b d) r.senses).Rests u := hu
    rw [hidle] at hu
    exact ⟨hu.slots, hu.cells, hu.queue, hu.batches, hu.dwell⟩

end Sys2Proof.Machine
end

section
/-! SUPPORT. Replies to step orders (R91, R97, R158), the failures they bring (R13, R104), and the sending of an order (R95). -/

namespace Sys2Proof.Machine

variable {s : State}

/-! ### ACK and NAK-busy -/

theorem exec_ack {b : BranchId} {d : DropId} {o : Order} {l : Nat}
    (hb : (s.branch b).bus = some { call := .entry (.order o), left := l }) (hd : o.drop = d) :
    exec (.ack b d) s = .next (s.busEvent fun s => s.takeAck b o) := by
  show Host.Outcome.next (s.onOrder b d _) = _
  simp only [State.onOrder, hb, hd, if_true]

theorem exec_nakBusy {b : BranchId} {d : DropId} {o : Order} {l : Nat}
    (hb : (s.branch b).bus = some { call := .entry (.order o), left := l }) (hd : o.drop = d) :
    exec (.nakBusy b d) s = .next (s.busEvent fun s => s.takeNak b o l) := by
  show Host.Outcome.next (s.onOrder b d _) = _
  simp only [State.onOrder, hb, hd, if_true]

/-- A reply with no order of its drop on the bus is discarded (R91). -/
theorem State.onOrder_discarded {b : BranchId} {d : DropId}
    (h : ∀ o l, (s.branch b).bus = some { call := .entry (.order o), left := l } → o.drop ≠ d)
    (f : State → Order → Nat → State) : s.onOrder b d f = s := by
  unfold State.onOrder
  split
  · rename_i o l hb
    exact if_neg (h o l hb)
  · rfl

theorem ack_effect {b : BranchId} {d : DropId} {o : Order} {l : Nat} (hr : s.resetHeld = false)
    (hb : (s.branch b).bus = some { call := .entry (.order o), left := l }) (hd : o.drop = d) :
    ∃ t, exec (.ack b d) s = .next t ∧ (t.branch b).poll.map PollEntry.key = (s.branch b).poll.map PollEntry.key ++
      [(d, o.seg, o.period, o.keep.getD false, s.now, false)] ∧ s.SameField t ∧ s.SameSetting t := by
  have hx := exec_ack hb hd
  obtain ⟨u, ps, st, hu, e⟩ := State.busEvent_eq hr fun s => s.takeAck b o
  have hfield : s.SameField (s.takeAck b o) := ⟨rfl, rfl, rfl, rfl, rfl, rfl, rfl, rfl, rfl⟩
  have hpoll : (u.branch b).poll.map PollEntry.key = (s.branch b).poll.map PollEntry.key ++
      [(d, o.seg, o.period, o.keep.getD false, s.now, false)] := by
    rw [(hu.branches b).poll, State.takeAck, State.branch_updBranch_self, List.map_append, ← hd]
    rfl
  refine ⟨_, hx, ?_, ?_, State.sameSetting_of_exec rfl hx⟩
  all_goals rw [e]
  · exact hpoll
  · exact (hfield.trans hu.sameField).ported ps st

/-- An order that goes back waits (R97). -/
theorem Branch.mem_orders_requeue (br : Branch) (o : Order) : o ∈ (br.requeue o).orders := by
  rw [Branch.mem_orders]
  unfold Branch.requeue
  split
  · exact .inl List.mem_cons_self
  · exact .inr List.mem_cons_self

/-- NAK-busy with attempts left, no halt pending: the order waits 20 ms with one attempt less. -/
theorem nakBusy_waits {b : BranchId} {o : Order} {k : Nat} {t : State} (hr : s.resetHeld = false)
    (hh : (s.branch b).halting = false) (ht : t = s.busEvent fun s => s.takeNak b o (k + 1)) : s.SameField t ∧
      { o with left := k, naked := true, wait := some (s.now + 20000) } ∈ (t.branch b).orders := by
  obtain ⟨u, ps, st, hu, e⟩ := State.busEvent_eq hr fun s => s.takeNak b o (k + 1)
  have hnak : s.takeNak b o (k + 1) = (s.freeBus b).updBranch b fun br =>
      br.requeue { o with left := k, naked := true, wait := some (s.now + 20000) } := by
    simp only [State.takeNak, hh, Bool.false_eq_true, if_false, Nat.add_one_ne_zero, Nat.add_sub_cancel]
    rfl
  rw [hnak] at hu
  have hfield : s.SameField ((s.freeBus b).updBranch b fun br =>
      br.requeue { o with left := k, naked := true, wait := some (s.now + 20000) }) :=
    ⟨rfl, rfl, rfl, rfl, rfl, rfl, rfl, rfl, rfl⟩
  have hwaits := (hu.branches b).waits { o with left := k, naked := true, wait := some (s.now + 20000) }
    (by rw [State.branch_updBranch_self]; exact Branch.mem_orders_requeue _ _) (Option.some_ne_none _)
  rw [ht, e]
  exact ⟨(hfield.trans hu.sameField).ported ps st, hwaits⟩

/-! ### A segment that fails (R13, R15) -/

theorem State.stands_leaveQueue (s : State) (n : SlotId) : s.Stands (s.leaveQueue n) := (s.rejudged_leaveQueue n).stands

/-- A fault moves no robot and begins no segment. -/
theorem State.faultSlot_keeps (s : State) (n : SlotId) (c : FaultCode) :
    (∀ m, ((s.faultSlot n c).slot m).stand = (s.slot m).stand) ∧ ∀ id, s.seg id = none → (s.faultSlot n c).seg id = none := by
  unfold State.faultSlot
  split
  · exact ⟨fun _ => rfl, fun _ h => h⟩
  · have hskip := (State.unchains_skipWhere (((s.leaveQueue n).updSlot n fun sl =>
      { sl with state := .faulted, fault := some c }).raise (.slotFault n c)) n fun g =>
        if g.body.isTrim then some .faultDrop else none).stands
    have hleave := s.stands_leaveQueue n
    refine ⟨fun m => (hskip.stand m).trans (Eq.trans ?_ (hleave.stand m)), fun id hid => hskip.empty id (hleave.empty id hid)⟩
    show (((s.leaveQueue n).updSlot n fun sl => { sl with state := .faulted, fault := some c }).slot m).stand = _
    by_cases e : n = m
    · subst e
      rw [State.slot_updSlot_self]
    · rw [State.slot_updSlot_ne _ _ e]

/-- A slot not FAULTED before takes the code. -/
theorem State.faultSlot_fault {n : SlotId} (h : (s.slot n).state ≠ .faulted) (c : FaultCode) :
    ((s.faultSlot n c).slot n).fault = some c := by
  have hskip := (State.unchains_skipWhere (((s.leaveQueue n).updSlot n fun sl =>
    { sl with state := .faulted, fault := some c }).raise (.slotFault n c)) n fun g =>
      if g.body.isTrim then some .faultDrop else none).stands
  rw [State.faultSlot, if_neg h, hskip.fault n]
  show (((s.leaveQueue n).updSlot n fun sl => { sl with state := .faulted, fault := some c }).slot n).fault = _
  rw [State.slot_updSlot_self]

/-- What a failure of segment `id` makes of slot `n`: the segment is gone, the robot stands at `st`, a fault is noted. -/
structure State.Fails (s t : State) (n : SlotId) (id : SegId) (st : Stand) (c : Option FaultCode) : Prop where
  gone : t.seg id = none
  stand : (t.slot n).stand = st
  fault : (s.slot n).state ≠ .faulted → ∀ x, c = some x → (t.slot n).fault = some x

theorem State.Fails.stands {t u : State} {n : SlotId} {id : SegId} {st : Stand} {c : Option FaultCode} (h : s.Fails t n id st c)
    (k : t.Stands u) : s.Fails u n id st c :=
  ⟨k.empty id h.gone, (k.stand n).trans h.stand, fun hs x hx => (k.fault n).trans (h.fault hs x hx)⟩

theorem State.fails_failSeg (s : State) (n : SlotId) (id : SegId) (g : Segment) (r : FailReason) (x y : Int) :
    s.Fails (s.failSeg n id g r x y) n id ((s.slot n).stand.afterFailure r x y g.body.sweep) ((s.slot n).stand.faultOf r x y) := by
  have hmoved : (s.moveStand n ((s.slot n).stand.afterFailure r x y g.body.sweep)).slot n =
      { s.slot n with stand := (s.slot n).stand.afterFailure r x y g.body.sweep } := by
    rw [State.slot, State.slots_moveStand, Table.get_upd_self]
    rfl
  unfold State.failSeg
  dsimp only
  generalize s.moveStand n ((s.slot n).stand.afterFailure r x y g.body.sweep) = u at hmoved ⊢
  have hrest := ((u.closeSeg id (.failed r)).unchains_skipRule n g.batch).trans (State.unchains_withdrawGranted _ n)
  have hgone := hrest.empty id (u.seg_closeSeg_self id (.failed r))
  obtain ⟨l, hslot⟩ := ((u.unchains_closeSeg id (.failed r)).trans hrest).slot n
  rw [hmoved] at hslot
  generalize ((u.closeSeg id (.failed r)).skipRule n g.batch).withdrawGranted n = v at hgone hslot ⊢
  split
  · rename_i c hc
    obtain ⟨hstand, hempty⟩ := v.faultSlot_keeps n c
    refine State.Fails.stands ⟨hempty id hgone, (hstand n).trans (by rw [hslot]), fun hs z hz => ?_⟩
      ((v.faultSlot n c).stands_settleCells n)
    rw [State.faultSlot_fault (by rw [hslot]; exact hs) c, ← hc, hz]
  · rename_i hc
    refine State.Fails.stands ⟨hgone, by rw [hslot], fun _ z hz => ?_⟩ ((v.stands_settleCells n).trans (State.stands_settleState _ n))
    rw [hc] at hz
    cases hz

/-- A completion FAILED, but for a contact fault, leaves the slot as the failure does. -/
theorem State.fails_complete {d : DropId} {id : SegId} {g : Segment} (hg : s.seg id = some g) {r : FailReason} (hr : r ≠ .collided)
    (b : BranchId) (x y : Bool) (i j : Int) : s.Fails (s.complete b d id x y (.failed r) i j) (slotOf b d) id
      ((s.slot (slotOf b d)).stand.afterFailure r i j g.body.sweep) ((s.slot (slotOf b d)).stand.faultOf r i j) := by
  have happly : s.Fails (s.applyOutcome b d id x y (.failed r) i j) (slotOf b d) id
      ((s.slot (slotOf b d)).stand.afterFailure r i j g.body.sweep) ((s.slot (slotOf b d)).stand.faultOf r i j) := by
    unfold State.applyOutcome
    dsimp only
    have hg' : (s.endFlight b d x (decide (SegOutcome.failed r = .done) && y)).seg id = some g := hg
    rw [hg']
    have h := State.fails_failSeg (s.endFlight b d x (decide (SegOutcome.failed r = .done) && y)) (slotOf b d) id g r i j
    exact ⟨h.gone, h.stand, h.fault⟩
  have hend (t : State) : t.Stands (t.endOutcome b (slotOf b d) (.failed r)) := by
    have hnot : ¬ (SegOutcome.failed r = .failed .collided ∧ (t.judge (slotOf b d)).sector = .run) :=
      fun h => hr (SegOutcome.failed.inj h.1)
    rw [State.endOutcome, if_neg hnot]
    exact ((t.stands_judge _).trans (State.stands_endBatches _)).trans (State.stands_finishHalt _ b)
  exact happly.stands (hend _)

/-- The failure of an order that NAK-busy brings, through the end of the event. -/
theorem nakBusy_fails {b : BranchId} {o : Order} {l : Nat} {g : Segment} {r : FailReason} {t : State} (hr : s.resetHeld = false)
    (hnak : s.takeNak b o l = (s.freeBus b).complete b o.drop o.seg false false (.failed r) 0 0) (hg : s.seg o.seg = some g)
    (hc : r ≠ .collided) (ht : t = s.busEvent fun s => s.takeNak b o l) : s.Fails t (slotOf b o.drop) o.seg
      ((s.slot (slotOf b o.drop)).stand.afterFailure r 0 0 g.body.sweep) ((s.slot (slotOf b o.drop)).stand.faultOf r 0 0) := by
  obtain ⟨u, ps, st, hu, e⟩ := State.busEvent_eq hr fun s => s.takeNak b o l
  rw [hnak] at hu
  have h := (State.fails_complete (s := s.freeBus b) (d := o.drop) hg hc b false false 0 0).stands hu.stands
  rw [ht, e]
  exact ⟨h.gone, h.stand, h.fault⟩

theorem movePos_zero (p : Theta × Phi) : movePos p.1 p.2 0 0 = some p := by
  obtain ⟨x, y⟩ := p
  have hx := x.isLt
  have hy := y.isLt
  simp only [movePos, add_zero, Int.toNat_natCast]
  exact dif_pos (by omega)

theorem nakBusy_effect {b : BranchId} {d : DropId} {o : Order} {l : Nat} (hr : s.resetHeld = false)
    (hb : (s.branch b).bus = some { call := .entry (.order o), left := l }) (hd : o.drop = d) :
    ∃ t, exec (.nakBusy b d) s = .next t ∧ s.SameSetting t ∧
      (∀ k, (s.branch b).halting = false → l = k + 1 → s.SameField t ∧
        { o with left := k, naked := true, wait := some (s.now + 20000) } ∈ (t.branch b).orders) ∧
      (∀ g, (s.branch b).halting = false → l = 0 → s.seg o.seg = some g → (s.slot (slotOf b d)).state ≠ .faulted →
        t.seg o.seg = none ∧ (t.slot (slotOf b d)).stand = .lost ∧ (t.slot (slotOf b d)).fault = some .stalled) ∧
      (∀ g p, (s.branch b).halting = true → s.seg o.seg = some g → (s.slot (slotOf b d)).stand.pos = some p →
        t.seg o.seg = none ∧ (t.slot (slotOf b d)).stand = .sweep p.1 p.2 g.body.sweep) := by
  have hx := exec_nakBusy hb hd
  refine ⟨_, hx, State.sameSetting_of_exec rfl hx, ?_, ?_, ?_⟩
  · rintro k hh rfl
    exact nakBusy_waits hr hh rfl
  · rintro g hh rfl hg hs
    have hnak : s.takeNak b o 0 = (s.freeBus b).complete b o.drop o.seg false false (.failed .stalled) 0 0 := by
      simp only [State.takeNak, hh, Bool.false_eq_true, if_false, if_true]
    have h := nakBusy_fails hr hnak hg (by nofun) rfl
    rw [hd] at h
    exact ⟨h.gone, h.stand, h.fault hs .stalled rfl⟩
  · intro g p hh hg hp
    have hnak : s.takeNak b o l = (s.freeBus b).complete b o.drop o.seg false false (.failed .interrupted) 0 0 := by
      simp only [State.takeNak, hh, if_true]
    have h := nakBusy_fails hr hnak hg (by nofun) rfl
    rw [hd] at h
    refine ⟨h.gone, h.stand.trans ?_⟩
    simp only [Stand.afterFailure, hp, Option.bind_some, movePos_zero]

/-! ### An order is sent (R95, R97) -/

section
variable {b : BranchId} {o : Order} {g : Segment} (hk : o.keep = none) (hg : s.seg o.seg = some g)
include hk hg

/-- With a look-ahead to chain to, order and look-ahead carry their marks. -/
theorem State.sendOrder_keeps {j : SegId} {h : Segment} (he : s.keepsEnergized (slotOf b o.drop) o.seg = some j) (hj : j ≠ o.seg)
    (hh : s.seg j = some h) :
    ((s.sendOrder b o).branch b).bus = some { call := .entry (.order { o with keep := some true }), left := o.left } ∧
      (s.sendOrder b o).seg o.seg = some { g with state := .active, continuation := false } ∧
      (s.sendOrder b o).seg j = some { h with continuation := true } := by
  simp only [State.sendOrder, hk, he]
  refine ⟨by rw [State.branch_updBranch_self]; rfl, ?_, ?_⟩
  · show (((s.updSeg o.seg _).updSeg j _).seg o.seg) = _
    rw [State.seg_updSeg_ne _ _ hj, State.seg_updSeg_self, hg]
    rfl
  · show (((s.updSeg o.seg _).updSeg j _).seg j) = _
    rw [State.seg_updSeg_self, State.seg_updSeg_ne _ _ (Ne.symm hj), hh]
    rfl

/-- With no look-ahead to chain to, the order carries a clear mark, and no other segment changes. -/
theorem State.sendOrder_drops (he : s.keepsEnergized (slotOf b o.drop) o.seg = none) :
    ((s.sendOrder b o).branch b).bus = some { call := .entry (.order { o with keep := some false }), left := o.left } ∧
      (s.sendOrder b o).seg o.seg = some { g with state := .active, continuation := false } ∧
      ∀ j, j ≠ o.seg → (s.sendOrder b o).seg j = s.seg j := by
  simp only [State.sendOrder, hk, he]
  refine ⟨by rw [State.branch_updBranch_self]; rfl, ?_, fun j hj => ?_⟩
  · show (s.updSeg o.seg _).seg o.seg = _
    rw [State.seg_updSeg_self, hg]
    rfl
  · exact State.seg_updSeg_ne _ _ (Ne.symm hj)

end

/-- The conditions of R95 fail: the mark is clear. -/
theorem State.keepsEnergized_eq_none {n : SlotId} {id : SegId} {g : Segment} (hg : s.seg id = some g)
    (h : ∀ j k x, s.grantedSegs n = [(id, g), (j, k)] → k.state = .granted → g.body.stepRate = some x →
      k.body.stepRate ≠ some x) : s.keepsEnergized n id = none := by
  unfold State.keepsEnergized
  split
  · rename_i i g' j k hl
    refine if_neg ?_
    rintro ⟨rfl, hk, hsome, heq⟩
    have hg' := (State.mem_grantedSegs (s := s) (n := n) (x := (i, g')) (by rw [hl]; exact List.mem_cons_self)).2
    rw [hg] at hg'
    cases hg'
    obtain ⟨x, hx⟩ := Option.isSome_iff_exists.1 hsome
    exact h j k x hl hk hx (heq ▸ hx)
  · rfl

/-- Settles O42: each reply's rule, the failure it may bring, and the conditions of R95. -/
theorem orderReplies : Obligations.OrderReplies := by
  refine ⟨fun s b d o l hr hb hd => ack_effect hr hb hd, fun s b d o l hr hb hd => nakBusy_effect hr hb hd, fun s b d h => ?_,
    fun s b o g hk hg => ⟨fun j h x hl hj hh hx hy => ?_, fun h => ?_⟩⟩
  · exact ⟨congrArg Host.Outcome.next (State.onOrder_discarded h _), congrArg Host.Outcome.next (State.onOrder_discarded h _)⟩
  · have he : s.keepsEnergized (slotOf b o.drop) o.seg = some j := by
      simp only [State.keepsEnergized, hl, hh, hx, hy, Option.isSome_some, and_self, if_true]
    have hseg := (State.mem_grantedSegs (s := s) (n := slotOf b o.drop) (x := (j, h)) (by rw [hl]; simp)).2
    exact State.sendOrder_keeps hk hg he hj hseg
  · exact State.sendOrder_drops hk hg (State.keepsEnergized_eq_none hg h)

end Sys2Proof.Machine
end

section
/-! SUPPORT. The HALT phase of start-up (R106, R109, R188): what each branch's arbiter makes of a branch just reset when a halt is
requested, and what it makes of it when the start-up census begins. -/

namespace Sys2Proof.Machine

variable {s : State} {b : BranchId}

/-! ### One branch replaced -/

/-- Branch `b` replaced by `x`. -/
def State.setBranch (s : State) (b : BranchId) (x : Branch) : State := { s with branches := s.branches.set b x }

theorem State.updBranch_eq (s : State) (b : BranchId) (f : Branch → Branch) : s.updBranch b f = s.setBranch b (f (s.branch b)) := rfl

theorem State.branch_setBranch (s : State) (b : BranchId) (x : Branch) : (s.setBranch b x).branch b = x := Table.get_set_self _ _ _

theorem State.setBranch_setBranch (s : State) (b : BranchId) (x y : Branch) : (s.setBranch b x).setBranch b y = s.setBranch b y :=
  congrArg (fun t : Table 4 Branch => { s with branches := t }) (Table.set_set _ _ _ _)

theorem State.setBranch_eq_self {x : Branch} (h : s.branch b = x) : s.setBranch b x = s := by
  subst h
  exact State.updBranch_eq_self (f := id) rfl

/-- What is done to each branch in turn, all of them alike. -/
theorem State.foldl_setBranch {f : State → BranchId → State} {x y : Branch}
    (hf : ∀ t b, Table.get t b = x → f { s with branches := t } b = State.setBranch { s with branches := t } b y)
    (h : ∀ b, s.branch b = x) : ∃ t, allBranches.foldl f s = { s with branches := t } ∧ ∀ b, t.get b = y := by
  have hfold (l : List BranchId) (hl : l.Nodup) (t : Table 4 Branch) (ht : ∀ b ∈ l, t.get b = x) : ∃ u,
      l.foldl f { s with branches := t } = { s with branches := u } ∧ ∀ b, u.get b = if b ∈ l then y else t.get b := by
    induction l generalizing t with
    | nil => exact ⟨t, rfl, fun b => rfl⟩
    | cons a l ih =>
      obtain ⟨ha, hl⟩ := List.nodup_cons.1 hl
      obtain ⟨u, hu, hget⟩ := ih hl (t.set a y) fun b hb => by
        have hne : a ≠ b := fun e => ha (e ▸ hb)
        rw [Table.get_set_ne _ _ hne]
        exact ht b (List.mem_cons_of_mem _ hb)
      refine ⟨u, ?_, fun b => ?_⟩
      · rw [List.foldl_cons, hf t a (ht a List.mem_cons_self)]
        exact hu
      · rw [hget, Table.get_set]
        by_cases e : a = b
        · subst e
          simp
        · simp [e, Ne.symm e]
  obtain ⟨u, hu, hget⟩ := hfold allBranches (List.nodup_finRange 4) s.branches fun b _ => h b
  exact ⟨u, hu, fun b => (hget b).trans (if_pos (List.mem_finRange b))⟩

/-! ### The halt of a branch just reset -/

/-- A branch just reset, a halt requested on it (R105). -/
def Branch.haltRequested : Branch := { Branch.atReset with haltPlace := true, halting := true }

/-- The halt sent and finished on it at a time (R106; log 4). -/
def Branch.haltSent (t : Nat) : Branch := { Branch.atReset with bus := some { call := .halt, left := 0 }, callAt := t }

theorem State.requestHalt_atReset (h : s.branch b = .atReset) : s.requestHalt b = s.setBranch b .haltRequested := by
  have horders : (s.branch b).orders = [] := by rw [h]; rfl
  rw [State.requestHalt, horders, List.foldl_nil, State.updBranch_eq, h]
  rfl

/-- The energized flags of a branch just reset are clear. -/
theorem Branch.drops_atReset : (Branch.atReset.drops.map fun x => { x with energized := false }) = Branch.atReset.drops := by
  refine Table.eq_of_get fun i => ?_
  rw [Table.get_map, Branch.atReset, Table.get_fill]
  rfl

theorem State.sendHalt_haltRequested (h : s.branch b = .haltRequested) (hs : s.sector ≠ .stopping) :
    s.sendHalt b = s.setBranch b (.haltSent s.now) := by
  have hsent : (s.updBranch b fun br => { br with
      haltPlace := false
      bus := some { call := .halt, left := 0 }
      callAt := s.now
      poll := br.poll.map fun e => { e with haltMark := true }
      drops := br.drops.map fun x => { x with energized := false } }) =
      s.setBranch b { Branch.haltSent s.now with halting := true } := by
    rw [State.updBranch_eq, h]
    exact congrArg (fun d => s.setBranch b { Branch.haltSent s.now with halting := true, drops := d }) Branch.drops_atReset
  rw [State.sendHalt, hsent, State.finishHalt, State.branch_setBranch]
  refine (if_pos rfl).trans ?_
  rw [State.updBranch_eq, State.branch_setBranch, State.setBranch_setBranch]
  exact if_neg hs

/-- The arbiter sends the halt and finishes it. -/
theorem State.arbitrate_haltRequested (h : s.branch b = .haltRequested) (hs : s.sector ≠ .stopping)
    (hi : ∀ t d, State.sweepable { s with branches := t } b d = false) : s.arbitrate b = s.setBranch b (.haltSent s.now) := by
  have hbr := s.branch_setBranch b (.haltSent s.now)
  have hfill : s.fillPlaces b = s := by
    refine State.fillPlaces_of_none ?_ ?_ ?_ ?_ (hi s.branches) <;> rw [h] <;> rfl
  have hstart : s.startBus b = s.setBranch b (.haltSent s.now) := by
    rw [State.startBus, h]
    exact State.sendHalt_haltRequested h hs
  have hfill' : (s.setBranch b (.haltSent s.now)).fillPlaces b = s.setBranch b (.haltSent s.now) := by
    refine State.fillPlaces_of_none ?_ ?_ ?_ ?_ (hi _) <;> rw [hbr] <;> rfl
  rw [State.arbitrate_eq, State.serve, hfill, hstart, hfill']
  exact State.takeOver_eq_self (.inl (by rw [hbr]; nofun))

/-! ### The roll calls of the start-up census -/

/-- The halt sent, the census begun, the roll calls of the first `k` drops queued (R93, R109). -/
def Branch.rolling (t k : Nat) : Branch :=
  { Branch.haltSent t with queue := (allDrops.take k).map .roll, rollsLeft := allDrops.drop k }

/-- The next drop's roll call may be queued. -/
theorem Branch.takeFirst_rolling (t : Nat) {k : Nat} (hk : k < 24) :
    takeFirst (Branch.rolling t k).mayRoll (Branch.rolling t k).rollsLeft = some (⟨k, hk⟩, allDrops.drop (k + 1)) := by
  have hdrop : allDrops.drop k = ⟨k, hk⟩ :: allDrops.drop (k + 1) := by
    rw [allDrops, List.drop_eq_getElem_cons (by simpa using hk)]
    simp
  have hfree : (Branch.rolling t k).called ⟨k, hk⟩ = false := by
    rw [Branch.called, List.any_eq_false]
    intro e he
    obtain ⟨d, hd, rfl⟩ := List.mem_map.1 he
    obtain ⟨i, hi, rfl⟩ := List.mem_iff_getElem.1 hd
    rw [List.length_take] at hi
    have hne : i ≠ k := by omega
    simpa [Entry.calls, allDrops] using hne
  have horders : (Branch.rolling t k).waitingOrder ⟨k, hk⟩ = false := by
    rw [Branch.waitingOrder, Bool.or_eq_false_iff, List.any_eq_false]
    refine ⟨fun e he => ?_, rfl⟩
    obtain ⟨d, -, rfl⟩ := List.mem_map.1 he
    exact Bool.false_ne_true
  have hmay : (Branch.rolling t k).mayRoll ⟨k, hk⟩ = true := by
    rw [Branch.mayRoll, hfree, horders]
    rfl
  show takeFirst _ (allDrops.drop k) = _
  rw [hdrop, takeFirst, if_pos hmay]

/-- A free place takes the next roll call (R93). -/
theorem State.fillPlace_rolling {t k : Nat} (h : s.branch b = .rolling t k) (hk : k < 8) :
    s.fillPlace b = s.setBranch b (.rolling t (k + 1)) := by
  have hlen : ¬ places ≤ (s.branch b).queue.length := by
    have hqueue : (s.branch b).queue = (allDrops.take k).map .roll := by rw [h]; rfl
    rw [hqueue, List.length_map, List.length_take]
    exact fun e => absurd (e.trans (Nat.min_le_left _ _)) (Nat.not_le.2 hk)
  have hnext := Branch.takeFirst_rolling t (show k < 24 by omega)
  have hqueue : (Branch.rolling t k).queue ++ [.roll ⟨k, by omega⟩] = (Branch.rolling t (k + 1)).queue := by
    show (allDrops.take k).map Entry.roll ++ _ = (allDrops.take (k + 1)).map Entry.roll
    have hlt : k < allDrops.length := by
      rw [allDrops, List.length_finRange]
      omega
    rw [List.take_succ_eq_append_getElem hlt, List.map_append]
    simp [allDrops]
  have hpoll : (Branch.rolling t k).poll.find? (fun e => e.wants.isSome && !(Branch.rolling t k).called e.drop) = none := rfl
  have hdraw : takeFirst (s.mayDraw b) (Branch.rolling t k).backlog = none := rfl
  have hdirect : (Branch.rolling t k).direct = none := rfl
  rw [State.fillPlace, if_neg hlen, h]
  simp only [hpoll, hdraw, hdirect, hnext]
  rw [State.updBranch_eq, h, hqueue]
  rfl

/-- The eight places are filled with the roll calls of drops 0 to 7. -/
theorem State.fillPlaces_rolling {t : Nat} (h : s.branch b = .rolling t 0) : s.fillPlaces b = s.setBranch b (.rolling t 8) := by
  have hfold (k : Nat) (hk : k ≤ 8) : (List.range k).foldl (fun s _ => s.fillPlace b) s = s.setBranch b (.rolling t k) := by
    induction k with
    | zero => exact (State.setBranch_eq_self h).symm
    | succ k ih =>
      rw [List.range_succ, List.foldl_append, ih (by omega), List.foldl_cons, List.foldl_nil,
        State.fillPlace_rolling (s.branch_setBranch b _) (by omega), State.setBranch_setBranch]
  exact hfold 8 (Nat.le_refl 8)

/-- With no place free none is filled. -/
theorem State.fillPlaces_of_full (h : places ≤ (s.branch b).queue.length) : s.fillPlaces b = s :=
  foldl_keeps (P := fun t => t = s) (fun t _ ht => by rw [ht, State.fillPlace]; exact if_pos h) rfl

/-- The arbiter of a branch whose census begins behind its halt. -/
theorem State.arbitrate_rolling {t : Nat} (h : s.branch b = .rolling t 0) : s.arbitrate b = s.setBranch b (.rolling t 8) := by
  have hbr := s.branch_setBranch b (.rolling t 8)
  have hstart : (s.setBranch b (.rolling t 8)).startBus b = s.setBranch b (.rolling t 8) := by
    rw [State.startBus, hbr]
    rfl
  have hfull : places ≤ ((s.setBranch b (.rolling t 8)).branch b).queue.length := by
    rw [hbr]
    show 8 ≤ ((allDrops.take 8).map Entry.roll).length
    decide
  rw [State.arbitrate_eq, State.serve, State.fillPlaces_rolling h, hstart, State.fillPlaces_of_full hfull]
  exact State.takeOver_eq_self (.inl (by rw [hbr]; nofun))

/-! ### The end of LOAD -/

/-- No slot present: the idle sweep calls none (R107). -/
theorem State.sweepable_of_absent (h : ∀ n, (s.slot n).state = .absent ∨ (s.slot n).state = .retired) (t : Table 4 Branch)
    (b : BranchId) (d : DropId) : State.sweepable { s with branches := t } b d = false := by
  have hslot : ∀ x : State, (x.slot (slotOf b d)).state = .absent ∨ (x.slot (slotOf b d)).state = .retired →
      x.sweepable b d = false := by
    intro x hx
    obtain hx | hx := hx <;> simp [State.sweepable, hx]
  exact hslot { s with branches := t } (h _)

/-- The halts of a part just reset and the census behind them. -/
theorem State.beginHalt_eq (hs : s.sector ≠ .stopping) (hb : ∀ b, s.branch b = .atReset)
    (hn : ∀ n, (s.slot n).state = .absent ∨ (s.slot n).state = .retired) : ∃ t sc ln, (∀ b, Table.get t b = .rolling s.now 8) ∧
      s.beginHalt = { s with phase := .census, census := .startup, branches := t, scanDue := sc, links := ln } := by
  obtain ⟨t1, e1, h1⟩ := State.foldl_setBranch (s := { s with phase := .halt }) (f := State.requestHalt) (y := .haltRequested)
    (fun t b h => State.requestHalt_atReset h) hb
  obtain ⟨t2, e2, h2⟩ := State.foldl_setBranch (s := { s with phase := .halt, branches := t1 }) (f := State.arbitrate)
    (y := .haltSent s.now) (fun t b h => State.arbitrate_haltRequested h hs fun u d =>
      State.sweepable_of_absent (s := { s with phase := .halt }) hn u b d) h1
  obtain ⟨t3, e3, h3⟩ := State.foldl_setBranch
    (s := State.beginCensus { s with phase := .census, branches := t2 } .startup) (f := State.arbitrate) (x := .rolling s.now 0)
    (y := .rolling s.now 8) (fun t b h => State.arbitrate_rolling h) fun b => (Table.get_map _ _ _).trans (by rw [h2]; rfl)
  have hadvance : State.advance { s with phase := .halt, branches := t2 } =
      (State.beginCensus { s with phase := .census, branches := t2 } .startup).arbitrateAll := by
    refine if_pos ⟨rfl, List.all_eq_true.2 fun br hbr => ?_⟩
    obtain ⟨b, rfl⟩ := Table.mem_items.1 hbr
    show (!(t2.get b).halting) = true
    rw [h2]
    rfl
  have hbuses : State.runBuses { s with phase := .halt, branches := t1 } =
      { s with phase := .census, census := .startup, branches := t3 } := by
    rw [State.runBuses, State.arbitrateAll, e2, hadvance, State.arbitrateAll, e3]
    rfl
  obtain ⟨sc, ln, e⟩ := State.settleEvent_eq (s := { s with phase := .census, census := .startup, branches := t3 }) (old := s) rfl
  refine ⟨t3, sc, ln, h3, ?_⟩
  rw [State.beginHalt, e1, State.finish, hbuses, e]

/-- Settles O11: the halts are sent and finished in one event, and the census fills the eight places of each branch. -/
theorem loadPhaseEnds : Obligations.LoadPhaseEnds := by
  refine ⟨fun s hr hp hs hb hn => ?_, fun s hp => if_neg hp⟩
  have hx : exec .loadPhaseEnd s = .next (s.event State.beginHalt) := if_pos hp
  obtain ⟨ps, st, e⟩ := State.event_eq hr State.beginHalt
  obtain ⟨t, sc, ln, ht, hbegin⟩ := State.beginHalt_eq hs hb hn
  rw [hbegin] at e
  refine ⟨_, hx, ?_, ?_, ?_, State.sameSetting_of_exec rfl hx, fun b => ?_⟩
  all_goals rw [e]
  · exact ⟨rfl, rfl, rfl, rfl, rfl, rfl, rfl, rfl, rfl⟩
  · exact ht b

end Sys2Proof.Machine
end
